-- ==== Sys2Proof/Word.lean ====
section
/-!
DEFINITION. The word types of the Control Link's fields (R206) and the small operand types of the
commands. Byte order and bit fields are in `Machine/Bytes.lean`.
-/
namespace Sys2Proof

/-- One byte of a frame, of a sample page or of the library flash. -/
abbrev Byte := BitVec 8

/-- A two-byte field: a handle, a page, a CRC, a sample code (R206). -/
abbrev Half := BitVec 16

/-- A four-byte field: a sample length, a flash byte address, a decimation (R206). -/
abbrev Quad := BitVec 32

/-- A channel number, 0 to 7 (section 0.6). -/
abbrev Chan := Fin 8

/-- The blocks that are handed the raise and the drop of the reference hold, each as an event of
its own (R141). -/
inductive HoldTarget where
  /-- the engine of one channel -/
  | channel (c : Chan)
  /-- the Timer Bank -/
  | timerBank
  /-- the Integrity Scanner -/
  | scanner
  deriving DecidableEq, Repr

end Sys2Proof
end

