-- ==== Sys2Proof/Machine/Bytes.lean ====
section
/-!
DEFINITION. Byte order and the CRC: how the fields of frames and records become bytes and back (R206,
section 0.6), and the one CRC rule of the part (R9).
-/
namespace Sys2Proof.Machine

/-- An unsigned one-byte field (R206). -/
def byte1 (n : Nat) : List Byte := [BitVec.ofNat 8 n]

/-- An indicator: 1 for set, on or high and 0 for clear, off or low (R206). -/
def byteOfBool (b : Bool) : List Byte := [if b then 1 else 0]

/-- A two-byte field, low byte first (R206). -/
def bytesOfHalf (x : Half) : List Byte := [x.extractLsb' 0 8, x.extractLsb' 8 8]

/-- A two-byte unsigned field (R206). -/
def byte2 (n : Nat) : List Byte := bytesOfHalf (BitVec.ofNat 16 n)

/-- A four-byte field, low byte first (R206). -/
def bytesOfQuad (x : Quad) : List Byte :=
  [x.extractLsb' 0 8, x.extractLsb' 8 8, x.extractLsb' 16 8, x.extractLsb' 24 8]

/-- A four-byte unsigned field (R206). -/
def byte4 (n : Nat) : List Byte := bytesOfQuad (BitVec.ofNat 32 n)

/-- An optional part of `width` bytes of fields: a presence byte and then the fields, which are zero
when the part is absent (R206). -/
def optionalPart (width : Nat) : Option (List Byte) → List Byte
  | some fields => 1 :: fields
  | none => 0 :: List.replicate width 0

/-- A list: a count byte and that many entries (R206). -/
def countedList (entries : List (List Byte)) : List Byte :=
  byte1 entries.length ++ entries.flatten

/-- The byte at a place of a payload. -/
def byteAt (p : List Byte) (k : Nat) : Byte := p.getD k 0

/-- The two-byte field at a place of a payload, low byte first. -/
def halfAt (p : List Byte) (k : Nat) : Half := byteAt p (k + 1) ++ byteAt p k

/-- The four-byte field at a place of a payload, low byte first. -/
def quadAt (p : List Byte) (k : Nat) : Quad := halfAt p (k + 2) ++ halfAt p k

/-- Consecutive two-byte fields, low byte first (the sample codes of WRITE PAGE, R2). -/
def halvesOf : List Byte → List Half
  | low :: high :: rest => (high ++ low) :: halvesOf rest
  | _ => []

/-- The bytes of sample codes in position order, low byte first (R2). -/
def bytesOfHalves (xs : List Half) : List Byte := xs.flatMap bytesOfHalf

/-- Byte `k` of a step record of eight bytes, byte 0 lowest. -/
def recordByte (r : BitVec 64) (k : Nat) : Byte := r.extractLsb' (8 * k) 8

/-- The eight bytes of a step record in order (section 4.3). -/
def bytesOfRecord (r : BitVec 64) : List Byte :=
  [recordByte r 0, recordByte r 1, recordByte r 2, recordByte r 3,
   recordByte r 4, recordByte r 5, recordByte r 6, recordByte r 7]

/-- Consecutive step records of eight bytes. -/
def recordsOf : List Byte → List (BitVec 64)
  | b0 :: b1 :: b2 :: b3 :: b4 :: b5 :: b6 :: b7 :: rest =>
    (b7 ++ b6 ++ b5 ++ b4 ++ b3 ++ b2 ++ b1 ++ b0) :: recordsOf rest
  | _ => []

/-- One bit of the polynomial division of R9, generator 1021h. -/
def crcShift (r : Half) : Half := if r.msb then (r <<< 1) ^^^ 0x1021 else r <<< 1

/-- R9: a byte is combined into the remainder, most significant bit first. -/
def crcByte (r : Half) (b : Byte) : Half :=
  let x := r ^^^ (b.setWidth 16 <<< 8)
  crcShift (crcShift (crcShift (crcShift (crcShift (crcShift (crcShift (crcShift x)))))))

/-- R9: the CRC of a sequence of bytes, from a remainder of FFFFh, nothing reflected or added. -/
def crc (bytes : List Byte) : Half := bytes.foldl crcByte 0xFFFF

end Sys2Proof.Machine
end

