-- ==== Sys2Proof/Config.lean ====
section
/-!
DEFINITION. What the part fixes once (the capacities of R211, the lock timeout of R137) and the FREE
VALUES, which no rule of the spec gives: a constant with no body, so that no proof can see its value.
-/
namespace Sys2Proof.Config

/-- FREE VALUE (log entry 1): the byte that the sample memory holds at a byte address after the
`n`-th power-on reset and before any write to it. R1: "After power-on reset the contents of every
page are unknown." The first argument counts power-on resets, so that two of them need not agree. -/
opaque powerOnByte : Nat → Nat → Byte

/-- FREE VALUE (log entry 1): the check word that PA holds for a page after the `n`-th power-on
reset and before the page receives data. R12: "After power-on reset every check word in the check
store is unknown." -/
opaque powerOnCheckWord : Nat → Nat → Half

/-- Pages of sample memory (R1). -/
abbrev pages : Nat := 32768

/-- Places on the retired list (R37). -/
abbrev retiredPlaces : Nat := 16

/-- Places in the request queue (R201). -/
abbrev requestPlaces : Nat := 4

/-- Places in the notice queue (R209). -/
abbrev noticePlaces : Nat := 32

/-- Places in the link reply list (R203). -/
abbrev linkReplyPlaces : Nat := 150

/-- The longest payload of a frame (R199). -/
abbrev maxPayload : Nat := 1032

/-- Step records of the Step Store (R58). -/
abbrev stepRecords : Nat := 4096

/-- Steps a channel takes at one event at most (R85). -/
abbrev stepsPerEvent : Nat := 64

/-- Master sample periods in one millisecond: 250 MSa/s (R134). -/
abbrev periodsPerMs : Nat := 250000

/-- The lock timeout of 250 ms (R137), counted in periods of 4 ns of the on-chip oscillator
(DESIGN CHOICE, log entry 5: the unit of the count). -/
abbrev lockTimeoutPeriods : Nat := 62500000

/-- Counted master periods after which the whole divider chain is back at the start of its count:
250 and six tens (R146). -/
abbrev timeBaseCycle : Nat := 250000000

end Sys2Proof.Config
end

