-- ==== Sys2Proof/Syntax.lean ====
section
/-!
DEFINITION. The commands of the BJ-8S: one constructor for each row of spec/opcode_table.json. The
first 43 are the requests of R202, each with the tag its frame carries and the payload fields of
R207 as they stand on the link (enumeration and indicator bytes raw, so that a code that names no
value can be sent and is answered with RANGE). The other 26 are the events that reach the part's
blocks from its own clocks, ports and lines.
-/
namespace Sys2Proof

/-- A command: a request of the host, or an event at one of the part's blocks. -/
inductive Instr where
  -- requests of the Control Link (chapter 11)
  /-- R211 -/
  | identify (tag : Byte)
  /-- R211 -/
  | readDevice (tag : Byte)
  /-- R214 -/
  | resetEngine (tag : Byte)
  /-- R212 -/
  | enterStandby (tag : Byte)
  /-- R213 -/
  | wake (tag : Byte)
  /-- R209 -/
  | setNotices (tag : Byte) (mask : Byte)
  -- images and handles (chapters 1 and 2)
  /-- R20 -/
  | defineImage (tag : Byte) (handle : Half) (sampleLength : Quad) (commitOnFinish : Byte)
  /-- R21 -/
  | writePage (tag : Byte) (handle pageIndex : Half) (samples : List Half)
  /-- R22 -/
  | finishImage (tag : Byte) (handle : Half)
  /-- R27 -/
  | commit (tag : Byte) (handle : Half)
  /-- R29 -/
  | dropIncoming (tag : Byte) (handle : Half)
  /-- R32 -/
  | releaseHandle (tag : Byte) (handle : Half)
  /-- R42 -/
  | readHandle (tag : Byte) (handle : Half)
  /-- R43 -/
  | readMap (tag : Byte) (startIndex : Half)
  -- guard ranges (chapter 3)
  /-- R50 -/
  | setGuard (tag : Byte) (slot : Byte) (firstPage lastPage : Half) (mode : Byte)
  /-- R51 -/
  | clearGuard (tag : Byte) (slot : Byte)
  /-- R53 -/
  | lockGuards (tag : Byte) (level : Byte)
  /-- R54 -/
  | readGuards (tag : Byte)
  -- library import (chapter 9)
  /-- R175 -/
  | startImport (tag : Byte) (handle : Half) (flashAddress sampleLength : Quad) (commitOnFinish : Byte)
  /-- R181 -/
  | cancelImport (tag : Byte)
  /-- R182 -/
  | readImport (tag : Byte)
  /-- R181 -/
  | closeLibrary (tag : Byte)
  -- integrity scanner (chapter 10)
  /-- R187 -/
  | setWalk (tag : Byte) (enable interval blockSize : Byte) (rangeStart rangeEnd : Half)
  /-- R194 -/
  | readWalk (tag : Byte)
  -- step store (chapter 4)
  /-- R61 -/
  | setPartition (tag : Byte) (unitCounts : List Byte)
  /-- R74 -/
  | writeSteps (tag : Byte) (channel : Byte) (first : Half) (count : Byte) (records : List (BitVec 64))
  /-- R77 -/
  | readSteps (tag : Byte) (channel : Byte) (first : Half) (count : Byte)
  -- channel engines (chapter 5)
  /-- R82 -/
  | run (tag : Byte) (mask : Byte) (start : Half) (code sense : Byte)
  /-- R102 -/
  | stop (tag : Byte) (mask mode : Byte)
  /-- R104 -/
  | pause (tag : Byte) (mask : Byte)
  /-- R104 -/
  | resume (tag : Byte) (mask : Byte)
  /-- R111 -/
  | readChannel (tag : Byte) (channel : Byte)
  /-- R109 -/
  | clearFault (tag : Byte) (channel : Byte)
  /-- R110 -/
  | setPolicy (tag : Byte) (channel policy routing timerNotice : Byte)
  -- conditions (chapter 6)
  /-- R124 -/
  | setFlags (tag : Byte) (set clear toggle : Byte)
  /-- R121 -/
  | fireTrigger (tag : Byte) (mask : Byte)
  /-- R120 -/
  | setRoute (tag : Byte) (channel routing present : Byte) (edges : List Byte)
  /-- R130 -/
  | readConditions (tag : Byte)
  -- reference clock (chapter 7)
  /-- R135 -/
  | setReference (tag : Byte) (source : Byte)
  /-- R155 -/
  | readClock (tag : Byte)
  /-- R144 -/
  | setRate (tag : Byte) (channel : Byte) (decimation : Quad)
  -- output stage (chapter 8)
  /-- R168 -/
  | setOutput (tag : Byte) (channel : Byte) (gain offset clampLow clampHigh rest : Half)
      (enable polarityA polarityB : Byte)
  /-- R169 -/
  | readOutput (tag : Byte) (channel : Byte)
  -- events at the link
  /-- R200: a received character; `stopHigh` is false when its stop bit is low (a framing error). -/
  | receiveCharacter (byte : Byte) (stopHigh : Bool)
  /-- R200: a gap of more than 1 ms. -/
  | linkGapTimeout
  /-- R202 -/
  | requestHandOn
  /-- R203: the frame being sent has been sent in full. -/
  | frameSent
  /-- R212: the ENTER STANDBY reply has been sent in full. -/
  | standbyBegin
  /-- R214: the RESET ENGINE reply has been sent in full. -/
  | engineResetPerformed
  -- resets
  /-- R215: power-on reset, with the levels it reads from the straps. -/
  | powerOnReset (linkRate : BitVec 2) (libEn refDefault : Bool)
  /-- R215: the RESET line is asserted. -/
  | resetLine
  -- lines
  /-- R52 -/
  | guardEnableChange (high : Bool)
  /-- R105 -/
  | pauseLineChange (high : Bool)
  /-- R118 -/
  | triggerLineChange (line : Fin 4) (high : Bool)
  -- clock hardware
  /-- R136 -/
  | lockAcquired
  /-- R137 -/
  | lockTimeoutExpiry
  /-- R139 -/
  | referenceLost
  /-- R138 -/
  | transferDone
  -- the hold, the sample periods and the time base
  /-- R141 -/
  | holdRaise (target : HoldTarget)
  /-- R141 -/
  | holdDrop (target : HoldTarget)
  /-- R143 -/
  | samplePeriod (channel : Chan)
  /-- R146: a tap event of T0 to T6. -/
  | timeBaseTap (tap : Fin 7)
  /-- R150 -/
  | timerExpiry (channel : Chan)
  /-- R125 -/
  | operandChange (channel : Chan)
  -- the importer and the scanner
  /-- R177: the read transaction named completes, with the data bytes the port received. -/
  | importPageComplete (transaction : Nat) (data : List Byte)
  /-- R188 -/
  | walkIntervalExpiry
  /-- R191: the scanner's page read named completes. -/
  | scanReadComplete (read : Nat)
  /-- R215: the RESET line is released. -/
  | resetLineRelease
  /-- R8: a page's stored bytes become `data` without being written. -/
  | pageDecay (page : BitVec 15) (data : List Byte)
  deriving DecidableEq, Repr

end Sys2Proof
end

