-- ==== Sys2Proof/Machine/State.lean ====
section
/-!
DEFINITION. The state of the BJ-8S as plain data, block by block, the reasons a step can stop, and the
state right after power-on reset. What the state does is in the other files of `Machine/`.
-/
namespace Sys2Proof.Machine

/-! ### Sparse stores -/

/-- Data kept by a number, listed with strictly rising keys (`Machine/Sparse.lean`). -/
abbrev Sparse (α : Type) := List (Nat × α)

/-- Sample memory (R1): the bytes that have been written, by byte address. The byte address of page
`p`, position `k` is `512 p + 2 k` for the low byte and one more for the high byte (R2). An address
not listed has not been written since the last power-on reset; what it holds is unknown (R1) and
reads as the free value `Config.powerOnByte`. -/
abbrev Memory := List Host.Cell

/-! ### Images (chapter 1), handles and the retired list (chapter 2) -/

/-- R3: where an image's pages come from. -/
inductive FillSource where
  | requests | imported
  deriving DecidableEq, Repr

/-- R8: GOOD, or DAMAGED with the first bad page (an index within the image) and the count of bad
pages found. -/
inductive Integrity where
  | good
  | damaged (firstBad count : Nat)
  deriving DecidableEq, Repr

/-- Section 1.2: the state of an image with the fields that are present only in that state. -/
inductive ImagePhase where
  /-- LOADING, with the commit-on-finish flag and the written-page set in ascending order -/
  | loading (commitOnFinish : Bool) (written : List Nat)
  /-- READY, with the integrity and the summary check -/
  | ready (integrity : Integrity) (summary : Half)
  /-- RETIRED, with the integrity and the summary check it kept -/
  | retired (integrity : Integrity) (summary : Half)
  deriving DecidableEq, Repr

/-- An image record (section 1.2, R3). -/
structure Image where
  /-- the model's own name of the record, never used again: R191 tells two image records apart even
  when they carry the same serial (log entry 8) -/
  ident : Nat
  /-- 1 to 65535 (R5) -/
  serial : Nat
  firstPage : Nat
  pageCount : Nat
  sampleLength : Nat
  source : FillSource
  phase : ImagePhase
  /-- the reference count, 0 to 8 (R36) -/
  refs : Nat
  deriving DecidableEq, Repr

/-- A handle record (section 2.1). -/
structure HandleRecord where
  current : Option Image
  incoming : Option Image
  deriving DecidableEq, Repr

/-- An entry of the retired list (R37): the image and its handle of origin. -/
structure RetiredEntry where
  origin : Nat
  image : Image
  deriving DecidableEq, Repr

/-- An entry of the free extent list (section 1.4). -/
structure Extent where
  first : Nat
  count : Nat
  deriving DecidableEq, Repr

/-! ### Guard Table (chapter 3) -/

inductive GuardMode where
  | fence | keep
  deriving DecidableEq, Repr

inductive LockLevel where
  | unlocked | line | frozen
  deriving DecidableEq, Repr

/-- R47. -/
structure GuardRange where
  first : Nat
  last : Nat
  mode : GuardMode
  deriving DecidableEq, Repr

/-- R47, R52: the eight slots, the lock level (`unlocked` is OPEN) and the GUARD ENABLE line. -/
structure GuardTable where
  slots : Vector (Option GuardRange) 8
  level : LockLevel
  line : Bool
  deriving DecidableEq, Repr

/-! ### Conditions and steps (chapters 4 and 6) -/

/-- R115: what a condition reads. -/
inductive Operand where
  | trig (line : Fin 4)
  | soft
  | flag (n : Fin 8)
  | timer
  | last
  | always
  deriving DecidableEq, Repr

/-- A condition: an operand and a sense; `negated` is the sense NOT. -/
structure Condition where
  operand : Operand
  negated : Bool
  deriving DecidableEq, Repr

inductive MarkerAction where
  | keep | set | clear
  deriving DecidableEq, Repr

inductive FlagAction where
  | set | clear | toggle
  deriving DecidableEq, Repr

/-- R72: what a WAIT puts out. -/
inductive WaitOutput where
  | holdLast | rest
  deriving DecidableEq, Repr

/-- R70: how a LOOP step says its section ends. -/
inductive LoopEnd where
  | count (n : Half)
  | condition (c : Condition)
  deriving DecidableEq, Repr

/-- A step record that passed every check of R75, kind and fields as sections 4.3 and 4.4 give them.
Its reserved bits are zero, so the eight stored bytes follow from it (R65). -/
inductive Step where
  | stop
  | play (handle : BitVec 10) (passCount : Half) (aStart aEnd bStart bEnd : MarkerAction)
      (scale : Option Half) (hold : Option Condition)
  | loop (last : BitVec 12) (ending : LoopEnd)
  | branch (condition : Condition) (target : BitVec 12) (leaveLoop : Bool)
  | call (target : BitVec 12)
  | ret
  | wait (release : Condition) (output : WaitOutput)
  | timer (preset : Half) (tap : Fin 8)
  | signal (flag : Option (Fin 8 × FlagAction)) (notify : Bool) (userCode : Byte)
  deriving DecidableEq, Repr

/-! ### Channel engines (chapter 5) -/

inductive RunState where
  | idle | armed | running | paused | faulted
  deriving DecidableEq, Repr

inductive DamagePolicy where
  | playAnyway | skip | fault
  deriving DecidableEq, Repr

inductive FaultCause where
  | noImage | damagedImage | badLoopEnd | loopOverflow | badTarget | returnOverflow | returnEmpty
  | windowEnd
  deriving DecidableEq, Repr

/-- R107. -/
structure FaultRecord where
  cause : FaultCause
  index : Nat
  handle : Option Nat
  loopDepth : Nat
  returnDepth : Nat
  deriving DecidableEq, Repr

/-- R79: the termination of a loop record. -/
inductive Termination where
  | count (remaining : Nat)
  | condition (c : Condition)
  deriving DecidableEq, Repr

/-- R79. -/
structure LoopRecord where
  first : Nat
  last : Nat
  termination : Termination
  deriving DecidableEq, Repr

/-- R79. -/
structure ReturnRecord where
  index : Nat
  depth : Nat
  deriving DecidableEq, Repr

/-- R88. -/
structure PlayRecord where
  serial : Nat
  firstPage : Nat
  pageCount : Nat
  sampleLength : Nat
  handle : Nat
  passCount : Nat
  scale : Option Half
  hold : Option Condition
  aEnd : MarkerAction
  bEnd : MarkerAction
  pass : Nat
  holdPass : Nat
  position : Nat
  deriving DecidableEq, Repr

/-- What a WAITING channel keeps of its WAIT step (R98). -/
structure WaitRecord where
  release : Condition
  output : WaitOutput
  deriving DecidableEq, Repr

/-- R81: the activity, with the record that is present in it. Outside RUNNING and PAUSED it is
`between`, which then means nothing. -/
inductive Activity where
  | between
  | playing (p : PlayRecord)
  | holding (p : PlayRecord)
  | waiting (w : WaitRecord)
  deriving DecidableEq, Repr

/-- R79: the state of a channel engine. -/
structure Engine where
  run : RunState
  activity : Activity
  held : Bool
  /-- the REQUEST pause reason -/
  requestPause : Bool
  /-- the LINE pause reason -/
  linePause : Bool
  stopPending : Bool
  /-- present in ARMED -/
  start : Option Condition
  /-- the step index; 0 in IDLE, where it is not present -/
  index : Nat
  lastCode : Option Half
  stepsAtEvent : Nat
  /-- innermost first -/
  loops : List LoopRecord
  /-- most recent first -/
  returns : List ReturnRecord
  /-- present in FAULTED -/
  fault : Option FaultRecord
  policy : DamagePolicy
  pauseRouting : Bool
  deriving DecidableEq, Repr

/-! ### Per channel: timer (R148), latches (R119, R122), rate (R133), output stage (R159) -/

/-- R148. -/
structure Timer where
  running : Bool
  count : Nat
  tap : Fin 8
  expired : Bool
  notify : Bool
  deriving DecidableEq, Repr

/-- R119, R121: bit `n` of `routing` and of `trig` is line TRIGn. -/
structure Latches where
  routing : BitVec 4
  trig : BitVec 4
  soft : Bool
  deriving DecidableEq, Repr

/-- R133, R143. -/
structure Rate where
  decimation : Nat
  phase : Nat
  deriving DecidableEq, Repr

/-- The eight output settings of R159. Codes are two's complement. A polarity is true when INVERTED. -/
structure OutputSettings where
  gain : Half
  offset : Half
  clampLow : Half
  clampHigh : Half
  rest : Half
  enable : Bool
  invertA : Bool
  invertB : Bool
  deriving DecidableEq, Repr

/-- R169. -/
inductive PortKind where
  | played | carried | rest
  deriving DecidableEq, Repr

/-- R159. The output-enable line follows `inForce.enable` alone (R167). -/
structure Output where
  inForce : OutputSettings
  pending : Option OutputSettings
  port : Half
  portKind : PortKind
  /-- the logical levels of the markers: true is active -/
  levelA : Bool
  levelB : Bool
  /-- the levels of the marker lines: true is high -/
  lineA : Bool
  lineB : Bool
  clipped : Bool
  deriving DecidableEq, Repr

/-- All that the part holds for one channel. -/
structure Channel where
  engine : Engine
  timer : Timer
  latches : Latches
  rate : Rate
  output : Output
  deriving DecidableEq, Repr

/-! ### Trigger lines (R118) and the Reference Clock Unit (R133) -/

/-- R118: the level as last seen, and the edge selection (true is FALLING). -/
structure TriggerLine where
  high : Bool
  falling : Bool
  deriving DecidableEq, Repr

inductive Source where
  | internal | external
  deriving DecidableEq, Repr

inductive SwitchCause where
  | request | loss
  deriving DecidableEq, Repr

inductive LockStatus where
  | off | searching | locked
  deriving DecidableEq, Repr

inductive ClockState where
  | steady
  | switching (target : Source) (cause : SwitchCause)
  deriving DecidableEq, Repr

/-- R133. The decimations and phases are with the channels, REF_DEFAULT with the straps. -/
structure Clock where
  source : Source
  state : ClockState
  lock : LockStatus
  /-- true while the hold is raised -/
  hold : Bool
  /-- present while the lock timeout runs: what remains of it, in periods of 4 ns -/
  lockTimeout : Option Nat
  /-- the position of the divider chain: counted master periods modulo its whole cycle (R146) -/
  timeBase : Nat
  deriving DecidableEq, Repr

/-! ### Library Importer (chapter 9) -/

/-- R174. The remaining pages are `pageCount - nextPage`. -/
structure ImportRecord where
  handle : Nat
  serial : Nat
  flashAddress : Nat
  sampleLength : Nat
  pageCount : Nat
  nextPage : Nat
  commitOnFinish : Bool
  deriving DecidableEq, Repr

/-- R173: a read transaction on the library port. -/
structure Transaction where
  /-- the name by which a completion names it (R177) -/
  id : Nat
  address : Nat
  bytes : Nat
  deriving DecidableEq, Repr

/-- R172, R174: `record` is present exactly while IMPORTING, `reading` exactly while the port is
READING with its chip select active. -/
structure Importer where
  record : Option ImportRecord
  reading : Option Transaction
  closed : Bool
  /-- the model's own count of transactions begun, which names the next one -/
  begun : Nat
  deriving DecidableEq, Repr

/-! ### Integrity Scanner (chapter 10) -/

inductive WalkState where
  | off | on | stopping
  deriving DecidableEq, Repr

/-- R186: the page in read, the image record that owned it, and the read begun for it. -/
structure PageRead where
  page : Nat
  owner : Nat
  id : Nat
  deriving DecidableEq, Repr

/-- R186. -/
structure Scanner where
  walk : WalkState
  suspended : Bool
  interval : Nat
  blockSize : Nat
  rangeStart : Nat
  rangeEnd : Nat
  cursor : Nat
  intervalRemaining : Option Nat
  blockRemaining : Option Nat
  pageInRead : Option PageRead
  sweeps : Nat
  /-- the model's own count of reads begun, which names the next one -/
  begun : Nat
  deriving DecidableEq, Repr

/-! ### Control Link (chapter 11) -/

/-- R205. -/
inductive Status where
  | ok | badFrame | badCheck | linkFull | unknownKind | range | busy | badState | noSpace | noHandle
  | incomingExists | noIncoming | notLoading | incomplete | notReady | guarded | locked | retireFull
  | libraryClosed | channelActive | badWindow
  deriving DecidableEq, Repr

/-- R199: a frame without its start byte, length and check, which follow from it. -/
structure Frame where
  kind : Byte
  tag : Byte
  payload : List Byte
  deriving DecidableEq, Repr

inductive RunEndCause where
  | completed | stopped | fault
  deriving DecidableEq, Repr

inductive CancelCause where
  | request | drop | release | close
  deriving DecidableEq, Repr

/-- R179. -/
inductive ImportOutcome where
  | done (summary : Half) (committed : Bool)
  | doneNotCommitted (summary : Half) (refusal : Status)
  | cancelled (pagesCompleted : Nat) (cause : CancelCause)
  deriving DecidableEq, Repr

inductive ImageRole where
  | incoming | current | retired
  deriving DecidableEq, Repr

/-- R140. -/
inductive ReferenceCause where
  | switched | lockFailed | lost
  deriving DecidableEq, Repr

/-- R210: the seven notices. -/
inductive Notice where
  | runEnd (channel : Chan) (cause : RunEndCause) (index : Nat) (fault : Option FaultRecord)
  | signal (channel : Chan) (userCode : Byte)
  | timer (channel : Chan)
  | importEnd (handle serial : Nat) (outcome : ImportOutcome)
  | damage (handle serial : Nat) (role : ImageRole) (pageIndex page : Nat)
  | freed (serial origin pageCount : Nat)
  | reference (source : Source) (cause : ReferenceCause)
  deriving DecidableEq, Repr

/-- R209: a notice in the queue with its lost-before flag. -/
structure QueuedNotice where
  notice : Notice
  lostBefore : Bool
  deriving DecidableEq, Repr

/-- R200: the receive assembly, with the bytes it has taken of the frame in progress, in order. -/
inductive Receive where
  | hunt
  /-- of kind, tag and the two length bytes, those that have arrived -/
  | header (taken : List Byte)
  | payload (kind tag : Byte) (length : Nat) (taken : List Byte)
  /-- the low check byte once it has arrived -/
  | check (kind tag : Byte) (payload : List Byte) (low : Option Byte)
  | discard
  deriving DecidableEq, Repr

/-- What the transmitter is sending (R203). A reply stays in its place until it has been sent; a
notice has left its queue. -/
inductive Sending where
  | linkReply
  | reply
  | notice (n : QueuedNotice)
  deriving DecidableEq, Repr

/-- R203: which of a reply and a notice was sent last. -/
inductive SentKind where
  | reply | notice
  deriving DecidableEq, Repr

/-- What the link waits to do once the reply in the slot has been sent (R212, R214). -/
inductive Awaiting where
  | standby | engineReset
  deriving DecidableEq, Repr

structure Link where
  receive : Receive
  /-- the request queue, oldest first (R201) -/
  requests : List Frame
  /-- the reply slot (R202) -/
  slot : Option Frame
  /-- the link reply list, oldest first (R203) -/
  linkReplies : List Frame
  sending : Option Sending
  lastSent : Option SentKind
  /-- the notice queue, oldest first (R209) -/
  notices : List QueuedNotice
  /-- the notice enable mask: bit t − 1 for notice type t; bit 7 is clear (R209) -/
  mask : Byte
  /-- the lost-notice marker -/
  lost : Bool
  standby : Bool
  awaiting : Option Awaiting
  deriving DecidableEq, Repr

/-- The straps as read at power-on reset (R172, R198, R156). -/
structure Straps where
  linkRate : BitVec 2
  libEn : Bool
  refDefault : Bool
  deriving DecidableEq, Repr

/-! ### The whole part -/

/-- The state of the BJ-8S. -/
structure State where
  /-- commands waiting, first in, first out (the host's queue, not the part's) -/
  pending : List Instr
  /-- events that a block has handed to another and that have not been taken yet, oldest first
  (log entry 3) -/
  handed : List Instr
  /-- true from the assertion of the RESET line to its release (R215) -/
  inReset : Bool
  straps : Straps
  link : Link
  /-- the handle records; a handle not listed is empty -/
  handles : Sparse HandleRecord
  /-- the retired list, oldest first -/
  retired : List RetiredEntry
  /-- the image serial counter, 1 to 65535 -/
  serialCounter : Nat
  /-- the model's own count of image records made, which names the next one -/
  imagesMade : Nat
  /-- the free extent list -/
  free : List Extent
  memory : Memory
  /-- the check store: the check words of the pages that have received data -/
  checkWords : Sparse Half
  /-- the model's own count of power-on resets, on which the unknown contents of memory depend -/
  powerOns : Nat
  /-- true while the DRAM is held in self-refresh (R212) -/
  selfRefresh : Bool
  guards : GuardTable
  importer : Importer
  scanner : Scanner
  /-- the Step Store; a position not listed holds the STOP record -/
  steps : Sparse Step
  /-- the window sizes in steps -/
  partition : Vector Nat 8
  channels : Vector Channel 8
  /-- the shared flags, FLAGn in bit n -/
  flags : BitVec 8
  lines : Vector TriggerLine 4
  /-- the level of the PAUSE input line -/
  pauseLine : Bool
  clock : Clock
  deriving DecidableEq, Repr

/-! ### The state after power-on reset -/

/-- R113. -/
def Engine.reset : Engine where
  run := .idle
  activity := .between
  held := false
  requestPause := false
  linePause := false
  stopPending := false
  start := none
  index := 0
  lastCode := none
  stepsAtEvent := 0
  loops := []
  returns := []
  fault := none
  policy := .fault
  pauseRouting := false

/-- R157. -/
def Timer.reset : Timer where
  running := false
  count := 0
  tap := 0
  expired := false
  notify := false

/-- R131. -/
def Latches.reset : Latches where
  routing := 0
  trig := 0
  soft := false

/-- R156. -/
def Rate.reset : Rate where
  decimation := 1
  phase := 0

/-- R159. -/
def OutputSettings.reset : OutputSettings where
  gain := 0x4000
  offset := 0
  clampLow := 0x8000
  clampHigh := 0x7FFF
  rest := 0
  enable := false
  invertA := false
  invertB := false

/-- R171. -/
def Output.reset : Output where
  inForce := OutputSettings.reset
  pending := none
  port := 0
  portKind := .rest
  levelA := false
  levelB := false
  lineA := false
  lineB := false
  clipped := false

def Channel.reset : Channel where
  engine := Engine.reset
  timer := Timer.reset
  latches := Latches.reset
  rate := Rate.reset
  output := Output.reset

/-- R156. -/
def Clock.reset : Clock where
  source := .internal
  state := .steady
  lock := .off
  hold := false
  lockTimeout := none
  timeBase := 0

/-- R215. -/
def Link.reset : Link where
  receive := .hunt
  requests := []
  slot := none
  linkReplies := []
  sending := none
  lastSent := none
  notices := []
  mask := 0x7F
  lost := false
  standby := false
  awaiting := none

/-- R56; the GUARD ENABLE line is an input, low here (DESIGN CHOICE, log entry 2). -/
def GuardTable.reset : GuardTable where
  slots := Vector.replicate 8 none
  level := .unlocked
  line := false

/-- R184. -/
def Importer.reset : Importer where
  record := none
  reading := none
  closed := false
  begun := 0

/-- R196. -/
def Scanner.reset : Scanner where
  walk := .off
  suspended := false
  interval := 100
  blockSize := 8
  rangeStart := 0
  rangeEnd := 32767
  cursor := 0
  intervalRemaining := none
  blockRemaining := none
  pageInRead := none
  sweeps := 0
  begun := 0

/-- The part right after power-on reset, every field as its chapter gives it. The levels of the
input lines and straps are inputs, not state of the part: here every line is low, the LINK_RATE code
is 0, LIB_EN is high and REF_DEFAULT is low (DESIGN CHOICE, log entry 2). -/
def State.reset : State where
  pending := []
  handed := []
  inReset := false
  straps := ⟨0, true, false⟩
  link := Link.reset
  handles := []
  retired := []
  serialCounter := 1
  imagesMade := 0
  free := [⟨0, 32768⟩]
  memory := []
  checkWords := []
  powerOns := 0
  selfRefresh := false
  guards := GuardTable.reset
  importer := Importer.reset
  scanner := Scanner.reset
  steps := []
  partition := Vector.replicate 8 512
  channels := Vector.replicate 8 Channel.reset
  flags := 0
  lines := Vector.replicate 4 ⟨false, false⟩
  pauseLine := false
  clock := Clock.reset

/-! ### The reasons a step can stop -/

/-- No command of the part ends in a fault: every row of the table has its effect in every state
(NOTES.md, Stops). The type has no constructor. -/
inductive Fault where
  deriving DecidableEq, Repr

/-- Why a command has no meaning here. -/
inductive Refusal where
  /-- raised by `exec`'s arm of a row that has no meaning yet; safe, since nothing can be proved of
  a run past it. No arm raises it. -/
  | notModelled (mnemonic : String)
  deriving DecidableEq, Repr

/-- What a command answers. -/
abbrev Result := Host.Outcome State Fault Refusal

end Sys2Proof.Machine
end

