-- ==== Sys2Proof/WellFormed.lean ====
section
/-!
DEFINITION. Which commands are well formed: the lists they carry have the lengths of R207 and of the
event itself. Every other operand is of a type that holds exactly its field.
-/
namespace Sys2Proof

/-- The lists a command carries have their lengths. A request frame of another length is answered
with BAD_FRAME by the link (R202); no data event of another length happens. -/
def Instr.wellFormed : Instr → Bool
  | .writePage _ _ _ samples => samples.length == 256
  | .setPartition _ counts => counts.length == 8
  | .writeSteps _ _ _ count records => records.length == count.toNat
  | .setRoute _ _ _ _ edges => edges.length == 4
  | .importPageComplete _ data => decide (data.length ≤ 512)
  | .pageDecay _ data => data.length == 512
  | .identify _ | .readDevice _ | .resetEngine _ | .enterStandby _ | .wake _ | .setNotices _ _
  | .defineImage _ _ _ _ | .finishImage _ _ | .commit _ _ | .dropIncoming _ _ | .releaseHandle _ _
  | .readHandle _ _ | .readMap _ _ | .setGuard _ _ _ _ _ | .clearGuard _ _ | .lockGuards _ _
  | .readGuards _ | .startImport _ _ _ _ _ | .cancelImport _ | .readImport _ | .closeLibrary _
  | .setWalk _ _ _ _ _ _ | .readWalk _ | .readSteps _ _ _ _ | .run _ _ _ _ _ | .stop _ _ _
  | .pause _ _ | .resume _ _ | .readChannel _ _ | .clearFault _ _ | .setPolicy _ _ _ _ _
  | .setFlags _ _ _ _ | .fireTrigger _ _ | .readConditions _ | .setReference _ _ | .readClock _
  | .setRate _ _ _ | .setOutput _ _ _ _ _ _ _ _ _ _ | .readOutput _ _ => true
  | .receiveCharacter _ _ | .linkGapTimeout | .requestHandOn | .frameSent | .standbyBegin
  | .engineResetPerformed | .powerOnReset _ _ _ | .resetLine | .guardEnableChange _
  | .pauseLineChange _ | .triggerLineChange _ _ | .lockAcquired | .lockTimeoutExpiry
  | .referenceLost | .transferDone | .holdRaise _ | .holdDrop _ | .samplePeriod _
  | .timeBaseTap _ | .timerExpiry _ | .operandChange _ | .walkIntervalExpiry
  | .scanReadComplete _ | .resetLineRelease => true

end Sys2Proof
end

