-- ==== Sys2Proof/Decode.lean ====
section
/-!
DEFINITION. The commands as bits. No row of spec/opcode_table.json gives bits, so `decodeTableWord`
answers none. The requests do have a byte layout on the Control Link (R202, R206, R207): this file
reads a request frame's kind and payload, and writes them from a request.
-/
namespace Sys2Proof

/-- The command that a word spells by the table's bits: no row of the table gives bits. -/
def decodeTableWord (_nbits _w : Nat) : Option Instr := none

open Machine in
/-- R202, R207: the payload length of each request kind, `none` for a kind that is no request kind.
WRITE STEPS is `4 + 8 c` bytes long, where `c` is its record count byte. -/
def payloadLength (kind : Byte) (payload : List Byte) : Option Nat :=
  match kind.toNat with
  | 0x01 | 0x02 | 0x03 | 0x04 | 0x05 => some 0
  | 0x06 => some 1
  | 0x10 => some 7
  | 0x11 => some 516
  | 0x12 | 0x13 | 0x14 | 0x15 | 0x16 | 0x17 => some 2
  | 0x18 => some 6
  | 0x19 | 0x1A => some 1
  | 0x1B => some 0
  | 0x20 => some 11
  | 0x21 | 0x22 | 0x23 => some 0
  | 0x28 => some 7
  | 0x29 => some 0
  | 0x30 => some 8
  | 0x31 => some (4 + 8 * (byteAt payload 3).toNat)
  | 0x32 => some 4
  | 0x38 => some 5
  | 0x39 => some 2
  | 0x3A | 0x3B | 0x3C | 0x3D => some 1
  | 0x3E => some 4
  | 0x40 => some 3
  | 0x41 => some 1
  | 0x42 => some 7
  | 0x43 => some 0
  | 0x48 => some 1
  | 0x49 => some 0
  | 0x4A => some 5
  | 0x50 => some 14
  | 0x51 => some 1
  | _ => none

open Machine in
/-- R207: the request of a kind, with its fields read from a payload of the kind's length. -/
def requestOf (kind tag : Byte) (p : List Byte) : Option Instr :=
  match kind.toNat with
  | 0x01 => some (.identify tag)
  | 0x02 => some (.readDevice tag)
  | 0x03 => some (.resetEngine tag)
  | 0x04 => some (.enterStandby tag)
  | 0x05 => some (.wake tag)
  | 0x06 => some (.setNotices tag (byteAt p 0))
  | 0x10 => some (.defineImage tag (halfAt p 0) (quadAt p 2) (byteAt p 6))
  | 0x11 => some (.writePage tag (halfAt p 0) (halfAt p 2) (halvesOf (p.drop 4)))
  | 0x12 => some (.finishImage tag (halfAt p 0))
  | 0x13 => some (.commit tag (halfAt p 0))
  | 0x14 => some (.dropIncoming tag (halfAt p 0))
  | 0x15 => some (.releaseHandle tag (halfAt p 0))
  | 0x16 => some (.readHandle tag (halfAt p 0))
  | 0x17 => some (.readMap tag (halfAt p 0))
  | 0x18 => some (.setGuard tag (byteAt p 0) (halfAt p 1) (halfAt p 3) (byteAt p 5))
  | 0x19 => some (.clearGuard tag (byteAt p 0))
  | 0x1A => some (.lockGuards tag (byteAt p 0))
  | 0x1B => some (.readGuards tag)
  | 0x20 => some (.startImport tag (halfAt p 0) (quadAt p 2) (quadAt p 6) (byteAt p 10))
  | 0x21 => some (.cancelImport tag)
  | 0x22 => some (.readImport tag)
  | 0x23 => some (.closeLibrary tag)
  | 0x28 => some (.setWalk tag (byteAt p 0) (byteAt p 1) (byteAt p 2) (halfAt p 3) (halfAt p 5))
  | 0x29 => some (.readWalk tag)
  | 0x30 => some (.setPartition tag p)
  | 0x31 => some (.writeSteps tag (byteAt p 0) (halfAt p 1) (byteAt p 3) (recordsOf (p.drop 4)))
  | 0x32 => some (.readSteps tag (byteAt p 0) (halfAt p 1) (byteAt p 3))
  | 0x38 => some (.run tag (byteAt p 0) (halfAt p 1) (byteAt p 3) (byteAt p 4))
  | 0x39 => some (.stop tag (byteAt p 0) (byteAt p 1))
  | 0x3A => some (.pause tag (byteAt p 0))
  | 0x3B => some (.resume tag (byteAt p 0))
  | 0x3C => some (.readChannel tag (byteAt p 0))
  | 0x3D => some (.clearFault tag (byteAt p 0))
  | 0x3E => some (.setPolicy tag (byteAt p 0) (byteAt p 1) (byteAt p 2) (byteAt p 3))
  | 0x40 => some (.setFlags tag (byteAt p 0) (byteAt p 1) (byteAt p 2))
  | 0x41 => some (.fireTrigger tag (byteAt p 0))
  | 0x42 => some (.setRoute tag (byteAt p 0) (byteAt p 1) (byteAt p 2) (p.drop 3))
  | 0x43 => some (.readConditions tag)
  | 0x48 => some (.setReference tag (byteAt p 0))
  | 0x49 => some (.readClock tag)
  | 0x4A => some (.setRate tag (byteAt p 0) (quadAt p 1))
  | 0x50 => some (.setOutput tag (byteAt p 0) (halfAt p 1) (halfAt p 3) (halfAt p 5) (halfAt p 7)
      (halfAt p 9) (byteAt p 11) (byteAt p 12) (byteAt p 13))
  | 0x51 => some (.readOutput tag (byteAt p 0))
  | _ => none

/-- What CL finds in a request frame (R202): a kind that is no request kind, a payload of the wrong
length, or a request. -/
inductive RequestRead where
  | unknownKind
  | badLength
  | request (i : Instr)
  deriving DecidableEq, Repr

open Machine in
/-- R202: the two tests CL makes of a frame before it hands the request on, in their order. -/
def decodeRequest (f : Frame) : RequestRead :=
  match payloadLength f.kind f.payload, requestOf f.kind f.tag f.payload with
  | some n, some i => if f.payload.length = n then .request i else .badLength
  | _, _ => .unknownKind

open Machine in
/-- R202, R206, R207: the frame of a request; an event has none. -/
def encodeRequest : Instr → Option Frame
  | .identify t => some ⟨0x01, t, []⟩
  | .readDevice t => some ⟨0x02, t, []⟩
  | .resetEngine t => some ⟨0x03, t, []⟩
  | .enterStandby t => some ⟨0x04, t, []⟩
  | .wake t => some ⟨0x05, t, []⟩
  | .setNotices t m => some ⟨0x06, t, [m]⟩
  | .defineImage t h n c => some ⟨0x10, t, bytesOfHalf h ++ bytesOfQuad n ++ [c]⟩
  | .writePage t h i xs => some ⟨0x11, t, bytesOfHalf h ++ bytesOfHalf i ++ bytesOfHalves xs⟩
  | .finishImage t h => some ⟨0x12, t, bytesOfHalf h⟩
  | .commit t h => some ⟨0x13, t, bytesOfHalf h⟩
  | .dropIncoming t h => some ⟨0x14, t, bytesOfHalf h⟩
  | .releaseHandle t h => some ⟨0x15, t, bytesOfHalf h⟩
  | .readHandle t h => some ⟨0x16, t, bytesOfHalf h⟩
  | .readMap t i => some ⟨0x17, t, bytesOfHalf i⟩
  | .setGuard t n f l m => some ⟨0x18, t, [n] ++ bytesOfHalf f ++ bytesOfHalf l ++ [m]⟩
  | .clearGuard t n => some ⟨0x19, t, [n]⟩
  | .lockGuards t l => some ⟨0x1A, t, [l]⟩
  | .readGuards t => some ⟨0x1B, t, []⟩
  | .startImport t h a n c =>
    some ⟨0x20, t, bytesOfHalf h ++ bytesOfQuad a ++ bytesOfQuad n ++ [c]⟩
  | .cancelImport t => some ⟨0x21, t, []⟩
  | .readImport t => some ⟨0x22, t, []⟩
  | .closeLibrary t => some ⟨0x23, t, []⟩
  | .setWalk t e i b f l => some ⟨0x28, t, [e, i, b] ++ bytesOfHalf f ++ bytesOfHalf l⟩
  | .readWalk t => some ⟨0x29, t, []⟩
  | .setPartition t cs => some ⟨0x30, t, cs⟩
  | .writeSteps t c f n rs =>
    some ⟨0x31, t, [c] ++ bytesOfHalf f ++ [n] ++ rs.flatMap bytesOfRecord⟩
  | .readSteps t c f n => some ⟨0x32, t, [c] ++ bytesOfHalf f ++ [n]⟩
  | .run t m i k n => some ⟨0x38, t, [m] ++ bytesOfHalf i ++ [k, n]⟩
  | .stop t m o => some ⟨0x39, t, [m, o]⟩
  | .pause t m => some ⟨0x3A, t, [m]⟩
  | .resume t m => some ⟨0x3B, t, [m]⟩
  | .readChannel t c => some ⟨0x3C, t, [c]⟩
  | .clearFault t c => some ⟨0x3D, t, [c]⟩
  | .setPolicy t c p r n => some ⟨0x3E, t, [c, p, r, n]⟩
  | .setFlags t x y z => some ⟨0x40, t, [x, y, z]⟩
  | .fireTrigger t m => some ⟨0x41, t, [m]⟩
  | .setRoute t c r p es => some ⟨0x42, t, [c, r, p] ++ es⟩
  | .readConditions t => some ⟨0x43, t, []⟩
  | .setReference t x => some ⟨0x48, t, [x]⟩
  | .readClock t => some ⟨0x49, t, []⟩
  | .setRate t c d => some ⟨0x4A, t, [c] ++ bytesOfQuad d⟩
  | .setOutput t c g o lo hi r e a b =>
    some ⟨0x50, t, [c] ++ bytesOfHalf g ++ bytesOfHalf o ++ bytesOfHalf lo ++ bytesOfHalf hi ++
      bytesOfHalf r ++ [e, a, b]⟩
  | .readOutput t c => some ⟨0x51, t, [c]⟩
  | .receiveCharacter _ _ | .linkGapTimeout | .requestHandOn | .frameSent | .standbyBegin
  | .engineResetPerformed | .powerOnReset _ _ _ | .resetLine | .guardEnableChange _
  | .pauseLineChange _ | .triggerLineChange _ _ | .lockAcquired | .lockTimeoutExpiry
  | .referenceLost | .transferDone | .holdRaise _ | .holdDrop _ | .samplePeriod _
  | .timeBaseTap _ | .timerExpiry _ | .operandChange _ | .importPageComplete _ _
  | .walkIntervalExpiry | .scanReadComplete _ | .resetLineRelease | .pageDecay _ _ => none

end Sys2Proof
end

