-- ==== Sys2Proof/Machine/Operands.lean ====
section
/-!
DEFINITION. The codes of fields: statuses (R205), enumerations (R206) and conditions (R67), from code
to value (`none` where a code names no value) and back, and the channel and flag masks.
-/
namespace Sys2Proof.Machine

/-! ### Statuses and enumerations -/

/-- R205. -/
def Status.code : Status → Byte
  | .ok => 0x00
  | .badFrame => 0x01
  | .badCheck => 0x02
  | .linkFull => 0x03
  | .unknownKind => 0x04
  | .range => 0x05
  | .busy => 0x06
  | .badState => 0x07
  | .noSpace => 0x08
  | .noHandle => 0x09
  | .incomingExists => 0x0A
  | .noIncoming => 0x0B
  | .notLoading => 0x0C
  | .incomplete => 0x0D
  | .notReady => 0x0E
  | .guarded => 0x0F
  | .locked => 0x10
  | .retireFull => 0x11
  | .libraryClosed => 0x12
  | .channelActive => 0x13
  | .badWindow => 0x14

/-- An indicator or an enable in a request: 0, 1, or no value (R206). -/
def boolOfCode (b : Byte) : Option Bool :=
  if b = 0 then some false else if b = 1 then some true else none

def RunState.code : RunState → Nat
  | .idle => 0
  | .armed => 1
  | .running => 2
  | .paused => 3
  | .faulted => 4

def Activity.code : Activity → Nat
  | .between => 0
  | .playing _ => 1
  | .holding _ => 2
  | .waiting _ => 3

def FaultCause.code : FaultCause → Nat
  | .noImage => 0
  | .damagedImage => 1
  | .badLoopEnd => 2
  | .loopOverflow => 3
  | .badTarget => 4
  | .returnOverflow => 5
  | .returnEmpty => 6
  | .windowEnd => 7

def RunEndCause.code : RunEndCause → Nat
  | .completed => 0
  | .stopped => 1
  | .fault => 2

def ImagePhase.code : ImagePhase → Nat
  | .loading _ _ => 0
  | .ready _ _ => 1
  | .retired _ _ => 2

def FillSource.code : FillSource → Nat
  | .requests => 0
  | .imported => 1

def GuardMode.code : GuardMode → Nat
  | .fence => 0
  | .keep => 1

def GuardMode.ofCode (b : Byte) : Option GuardMode :=
  if b = 0 then some .fence else if b = 1 then some .keep else none

def LockLevel.code : LockLevel → Nat
  | .unlocked => 0
  | .line => 1
  | .frozen => 2

def LockLevel.ofCode (b : Byte) : Option LockLevel :=
  if b = 0 then some .unlocked else if b = 1 then some .line else if b = 2 then some .frozen else none

def DamagePolicy.code : DamagePolicy → Nat
  | .playAnyway => 0
  | .skip => 1
  | .fault => 2

def DamagePolicy.ofCode (b : Byte) : Option DamagePolicy :=
  if b = 0 then some .playAnyway else if b = 1 then some .skip else if b = 2 then some .fault else none

def Source.code : Source → Nat
  | .internal => 0
  | .external => 1

def Source.ofCode (b : Byte) : Option Source :=
  if b = 0 then some .internal else if b = 1 then some .external else none

def ClockState.code : ClockState → Nat
  | .steady => 0
  | .switching _ _ => 1

def SwitchCause.code : SwitchCause → Nat
  | .request => 0
  | .loss => 1

def LockStatus.code : LockStatus → Nat
  | .off => 0
  | .searching => 1
  | .locked => 2

def ReferenceCause.code : ReferenceCause → Nat
  | .switched => 0
  | .lockFailed => 1
  | .lost => 2

def CancelCause.code : CancelCause → Nat
  | .request => 0
  | .drop => 1
  | .release => 2
  | .close => 3

def WalkState.code : WalkState → Nat
  | .off => 0
  | .on => 1
  | .stopping => 2

def PortKind.code : PortKind → Nat
  | .played => 0
  | .carried => 1
  | .rest => 2

def ImageRole.code : ImageRole → Nat
  | .incoming => 0
  | .current => 1
  | .retired => 2

/-- STOP's mode: true is AFTER_PLAY (R206). -/
def stopModeOfCode (b : Byte) : Option Bool := boolOfCode b

/-- An edge selection: true is FALLING (R206). -/
def edgeOfCode (b : Byte) : Option Bool := boolOfCode b

/-! ### Channels and masks -/

/-- The channels in ascending order. -/
def allChannels : List Chan := [0, 1, 2, 3, 4, 5, 6, 7]

/-- A channel number byte, 0 to 7. -/
def chanOfCode (b : Byte) : Option Chan :=
  if h : b.toNat < 8 then some ⟨b.toNat, h⟩ else none

/-- The channels a mask names, in ascending order. -/
def maskChannels (m : Byte) : List Chan := allChannels.filter fun c => m.getLsbD c.val

/-- The mask of the channels that satisfy a test, channel 0 in bit 0 (R206). -/
def maskOf (p : Chan → Bool) : Byte :=
  allChannels.foldr (fun c acc => if p c then acc ||| (1#8 <<< c.val) else acc) 0

/-! ### Conditions (R67, R115) -/

/-- R67. -/
def Operand.code : Operand → Nat
  | .trig n => n.val
  | .soft => 4
  | .flag n => 5 + n.val
  | .timer => 13
  | .last => 14
  | .always => 15

/-- R67: codes 16 and above name no condition. -/
def Operand.ofCode (k : Nat) : Option Operand :=
  if h : k < 4 then some (.trig ⟨k, h⟩)
  else if k = 4 then some .soft
  else if h : k - 5 < 8 then some (.flag ⟨k - 5, h⟩)
  else if k = 13 then some .timer
  else if k = 14 then some .last
  else if k = 15 then some .always
  else none

/-- A condition from its five-bit code and its sense bit (R67). -/
def Condition.ofCode (k : Nat) (negated : Bool) : Option Condition :=
  (Operand.ofCode k).map fun o => ⟨o, negated⟩

/-- The six bits a condition takes in a step record: code in bits 0 to 4, sense in bit 5 (R67). -/
def Condition.bits (c : Condition) : Nat := c.operand.code + (if c.negated then 32 else 0)

/-- A condition on the link: code, then sense (R206). -/
def Condition.bytes (c : Condition) : List Byte := byte1 c.operand.code ++ byteOfBool c.negated

/-- The code on the link for a condition field that has none. -/
def noCondition : List Byte := [0, 0]

end Sys2Proof.Machine
end

