-- ==== Sys2Proof/Machine/Sparse.lean ====
section
/-!
DEFINITION. Sparse stores: data listed by number with strictly rising keys. Memory, the check store,
the handle table and the Step Store are kept so; equal contents are then equal data.
-/
namespace Sys2Proof.Machine

variable {α : Type}

/-- The datum listed under a key. -/
def Sparse.find : List (Nat × α) → Nat → Option α
  | [], _ => none
  | (j, v) :: m, k => if j = k then some v else Sparse.find m k

/-- Lists a datum under a key, in place of the one it held. -/
def Sparse.put : List (Nat × α) → Nat → α → List (Nat × α)
  | [], k, v => [(k, v)]
  | (j, w) :: m, k, v =>
    if k < j then (k, v) :: (j, w) :: m
    else if k = j then (k, v) :: m
    else (j, w) :: Sparse.put m k v

/-- Takes a key off the list. -/
def Sparse.erase : List (Nat × α) → Nat → List (Nat × α)
  | [], _ => []
  | (j, w) :: m, k => if j = k then m else (j, w) :: Sparse.erase m k

/-- The datum of a key in a store where an unlisted key holds `d`. -/
def Sparse.get (d : α) (m : List (Nat × α)) (k : Nat) : α := (Sparse.find m k).getD d

/-- Writes a datum in a store where an unlisted key holds `d`: writing `d` takes the key off. -/
def Sparse.set [DecidableEq α] (d : α) (m : List (Nat × α)) (k : Nat) (v : α) : List (Nat × α) :=
  if v = d then Sparse.erase m k else Sparse.put m k v

/-- The keys rise strictly, from one above `low` where a bound is given. -/
def Sparse.risingFrom : Option Nat → List (Nat × α) → Bool
  | _, [] => true
  | none, (k, _) :: m => Sparse.risingFrom (some k) m
  | some low, (k, _) :: m => decide (low < k) && Sparse.risingFrom (some k) m

/-- The canonical form of a store whose unlisted keys are unknown: the keys rise strictly. -/
def Sparse.rising (m : List (Nat × α)) : Bool := Sparse.risingFrom none m

/-- The canonical form of a store where an unlisted key holds `d`: the keys rise strictly and no
entry holds `d`. -/
def Sparse.canonical [DecidableEq α] (d : α) (m : List (Nat × α)) : Bool :=
  Sparse.rising m && m.all fun e => decide (e.2 ≠ d)

/-- Bytes laid out from an address upward. -/
def Memory.cells : Nat → List Byte → Memory
  | _, [] => []
  | a, b :: bs => (a, b) :: Memory.cells (a + 1) bs

/-- Writes bytes from an address upward, in one pass over the list. -/
def Memory.write (m : Memory) (a : Nat) (bytes : List Byte) : Memory :=
  m.filter (fun c => decide (c.1 < a)) ++ Memory.cells a bytes ++
    m.filter (fun c => decide (a + bytes.length ≤ c.1))

/-- The canonical form of sample memory: addresses rise strictly and lie in the 16,777,216 bytes of
R1. An unlisted byte is unknown, so no entry can equal what it reads as. -/
def Memory.wf (m : Memory) : Bool :=
  Sparse.rising m && m.all fun c => decide (c.1 < 16777216)

end Sys2Proof.Machine
end

