-- ==== Sys2Proof/Machine/Ops.lean ====
section
/-!
DEFINITION. The operations every block shares: the channels' records, sample memory and the check store
(R1, R10), the events one block hands to another, the notice queue (R209), the reply slot, the link
reply list and the transmitter (R203), and how a request reaches its block (R201, R202).
-/
namespace Sys2Proof.Machine

/-! ### Channel records -/

def State.chan (s : State) (c : Chan) : Channel := s.channels[c]

def State.setChan (s : State) (c : Chan) (x : Channel) : State :=
  { s with channels := s.channels.set c x }

def State.engine (s : State) (c : Chan) : Engine := (s.chan c).engine

def State.setEngine (s : State) (c : Chan) (e : Engine) : State :=
  s.setChan c { s.chan c with engine := e }

def State.timer (s : State) (c : Chan) : Timer := (s.chan c).timer

def State.setTimer (s : State) (c : Chan) (t : Timer) : State :=
  s.setChan c { s.chan c with timer := t }

def State.latches (s : State) (c : Chan) : Latches := (s.chan c).latches

def State.setLatches (s : State) (c : Chan) (l : Latches) : State :=
  s.setChan c { s.chan c with latches := l }

def State.rate (s : State) (c : Chan) : Rate := (s.chan c).rate

def State.setRate (s : State) (c : Chan) (r : Rate) : State :=
  s.setChan c { s.chan c with rate := r }

def State.output (s : State) (c : Chan) : Output := (s.chan c).output

def State.setOutput (s : State) (c : Chan) (o : Output) : State :=
  s.setChan c { s.chan c with output := o }

/-- ARMED, RUNNING or PAUSED: what CHANNEL_ACTIVE and the trigger latches ask (R61, R119). -/
def RunState.active : RunState → Bool
  | .armed | .running | .paused => true
  | .idle | .faulted => false

/-- Carries out an action for each channel in turn, in ascending order. -/
def State.eachChannel (s : State) (f : Chan → State → State) : State :=
  allChannels.foldl (fun s c => f c s) s

/-! ### Sample memory and the check store -/

/-- The byte stored at a byte address of sample memory (R1, R2); unknown until written. -/
def State.storedByte (s : State) (a : Nat) : Byte :=
  (Sparse.find s.memory a).getD (Config.powerOnByte s.powerOns a)

/-- The 512 bytes of a page in the order of R2. -/
def State.pageBytes (s : State) (page : Nat) : List Byte :=
  (List.range 512).map fun k => s.storedByte (512 * page + k)

/-- R1: sample `n` of an image that begins at page `first`. -/
def State.sampleAt (s : State) (first n : Nat) : Half :=
  s.storedByte (512 * first + 2 * n + 1) ++ s.storedByte (512 * first + 2 * n)

/-- The check word PA holds for a page (R10); unknown until the page receives data (R12). -/
def State.checkWord (s : State) (page : Nat) : Half :=
  (Sparse.find s.checkWords page).getD (Config.powerOnCheckWord s.powerOns page)

/-- R10: data for a page arrives: PA stores its 512 bytes and computes and stores its check word. -/
def State.storePage (s : State) (page : Nat) (bytes : List Byte) : State :=
  { s with
    memory := Memory.write s.memory (512 * page) bytes
    checkWords := Sparse.put s.checkWords page (crc bytes) }

/-! ### Events handed from one block to another -/

/-- An event is handed on; the block takes it as an event of its own. -/
def State.hand (s : State) (e : Instr) : State := { s with handed := s.handed ++ [e] }

/-- A handed event has been taken. -/
def State.taken (s : State) (e : Instr) : State := { s with handed := s.handed.erase e }

/-- Events that were handed on and have not been taken are withdrawn: where a request restarts a channel's
phase (R144, R145) or its run (R83), what was handed to the channel before is not of the new phase or run
(DEDUCED, log entry 26). -/
def State.withdraw (s : State) (es : List Instr) : State :=
  { s with handed := s.handed.filter fun e => decide (e ∉ es) }

/-- What stands handed before an event: everything, where the event does not stand handed. -/
def State.handedBefore (s : State) (e : Instr) : List Instr :=
  s.handed.takeWhile fun x => decide (x ≠ e)

/-- R141, R162: while the hold stands no sample period event and no tap event reaches any block, and none
reaches a channel that is held. One that was handed on before the raise waits for the drop
(log entry 19). Every other event may be taken at any time. -/
def State.admits (s : State) : Instr → Bool
  | .samplePeriod c => !s.clock.hold && !(s.engine c).held
  | .timeBaseTap _ => !s.clock.hold
  | _ => true

/-! ### Notices (R209) -/

/-- R210: the notice type, 1 to 7. -/
def Notice.type : Notice → Nat
  | .runEnd _ _ _ _ => 1
  | .signal _ _ => 2
  | .timer _ => 3
  | .importEnd _ _ _ => 4
  | .damage _ _ _ _ _ => 5
  | .freed _ _ _ => 6
  | .reference _ _ => 7

/-- R209: a block hands a notice to CL: withheld by the mask, discarded with the lost-notice marker
set, or queued with the marker passed on. -/
def Link.notify (l : Link) (n : Notice) : Link :=
  if l.mask.getLsbD (n.type - 1) then
    if l.notices.length < Config.noticePlaces then
      { l with notices := l.notices ++ [⟨n, l.lost⟩], lost := false }
    else { l with lost := true }
  else l

def State.notify (s : State) (n : Notice) : State := { s with link := s.link.notify n }

/-! ### Frames -/

/-- R208, R210: a fault record on the link, 8 bytes. -/
def FaultRecord.bytes (r : FaultRecord) : List Byte :=
  byte1 r.cause.code ++ byte2 r.index ++ optionalPart 2 (r.handle.map byte2) ++
    byte1 r.loopDepth ++ byte1 r.returnDepth

/-- R210: the fields of a notice after its type and lost-before flag. Fields an IMPORT outcome does
not use are zero. -/
def Notice.fields : Notice → List Byte
  | .runEnd c cause i f =>
    byte1 c.val ++ byte1 cause.code ++ byte2 i ++ optionalPart 8 (f.map FaultRecord.bytes)
  | .signal c u => byte1 c.val ++ [u]
  | .timer c => byte1 c.val
  | .importEnd h n (.done summary committed) =>
    byte2 h ++ byte2 n ++ byte1 0 ++ bytesOfHalf summary ++ byteOfBool committed ++ byte1 0 ++
      byte2 0 ++ byte1 0
  | .importEnd h n (.doneNotCommitted summary refusal) =>
    byte2 h ++ byte2 n ++ byte1 1 ++ bytesOfHalf summary ++ byte1 0 ++ [refusal.code] ++
      byte2 0 ++ byte1 0
  | .importEnd h n (.cancelled pages cause) =>
    byte2 h ++ byte2 n ++ byte1 2 ++ byte2 0 ++ byte1 0 ++ byte1 0 ++ byte2 pages ++
      byte1 cause.code
  | .damage h n role k p => byte2 h ++ byte2 n ++ byte1 role.code ++ byte2 k ++ byte2 p
  | .freed n h k => byte2 n ++ byte2 h ++ byte2 k
  | .reference src cause => byte1 src.code ++ byte1 cause.code

/-- R199, R210: a notice frame, kind 7Eh and tag 0. -/
def QueuedNotice.frame (q : QueuedNotice) : Frame where
  kind := 0x7E
  tag := 0
  payload := byte1 q.notice.type ++ byteOfBool q.lostBefore ++ q.notice.fields

/-- The bytes the frame check covers: kind, tag, length and payload (R199). -/
def Frame.checkedBytes (f : Frame) : List Byte :=
  [f.kind, f.tag] ++ byte2 f.payload.length ++ f.payload

/-- R199: a frame as its characters go out. -/
def Frame.wire (f : Frame) : List Byte :=
  0xC5 :: f.checkedBytes ++ bytesOfHalf (crc f.checkedBytes)

/-- R203: a link-made reply, kind F0h plus the status code. -/
def linkMade (st : Status) (tag : Byte) : Frame := ⟨0xF0 + st.code, tag, []⟩

/-- R199: the reply to a request that was handed on, the request kind plus 80h. -/
def replyTo (kind tag : Byte) (payload : List Byte) : Frame := ⟨kind + 0x80, tag, payload⟩

/-! ### Replies and the transmitter -/

/-- What a block answers a request with: the state after it and the payload of its reply. -/
abbrev Answer := State × List Byte

/-- R204: a reply payload begins with the status byte, followed by the results. -/
def answer (st : Status) (results : List Byte) (s : State) : Answer := (s, st.code :: results)

/-- R205: a refusal that carries nothing after its status and changes nothing. -/
def refuse (st : Status) (s : State) : Answer := answer st [] s

/-- R202: a reply takes the reply slot. -/
def Link.placeReply (l : Link) (f : Frame) : Link := { l with slot := some f }

/-- R203: a link-made reply joins the link reply list. The list has room for 150 and does not fill
(R203); past its room nothing is added (DESIGN CHOICE, log entry 12). -/
def Link.addLinkReply (l : Link) (f : Frame) : Link :=
  if l.linkReplies.length < Config.linkReplyPlaces then { l with linkReplies := l.linkReplies ++ [f] }
  else l

/-- R203: the transmitter, when it is free, chooses the next frame and begins it. A notice leaves the
queue when its frame begins. -/
def Link.transmit (l : Link) : Link :=
  match l.sending with
  | some _ => l
  | none =>
    match l.linkReplies, l.slot, l.notices with
    | _ :: _, _, _ => { l with sending := some .linkReply }
    | [], some _, n :: ns =>
      if l.lastSent = some .reply then { l with sending := some (.notice n), notices := ns }
      else { l with sending := some .reply }
    | [], some _, [] => { l with sending := some .reply }
    | [], none, n :: ns => { l with sending := some (.notice n), notices := ns }
    | [], none, [] => l

def State.transmit (s : State) : State := { s with link := s.link.transmit }

/-- The frame on the transmit line, if one is being sent. -/
def State.frameOnLine (s : State) : Option Frame :=
  match s.link.sending with
  | none => none
  | some .linkReply => s.link.linkReplies.head?
  | some .reply => s.link.slot
  | some (.notice q) => some q.frame

/-! ### How commands reach the part -/

/-- R202: CL may hand a frame on: the reply slot is empty and the link waits for neither standby nor
the engine reset. -/
def Link.ready (l : Link) : Bool := l.slot.isNone && l.awaiting.isNone

/-- R201: a checked frame joins the request queue, or is answered LINK_FULL when 4 wait. -/
def Link.arrive (l : Link) (f : Frame) : Link :=
  if l.requests.length < Config.requestPlaces then { l with requests := l.requests ++ [f] }
  else l.addLinkReply (linkMade .linkFull f.tag)

/-- R201, R213: a checked frame arrives. In standby every frame but a WAKE with payload length 0 is
discarded. -/
def State.arrive (s : State) (f : Frame) : State :=
  if s.link.standby && !(f.kind == 0x05 && f.payload.isEmpty) then s
  else { s with link := s.link.arrive f }

/-- R202: the block takes the request, and its answer becomes the reply in the slot. -/
def State.perform (s : State) (f : Frame) (take : State → Answer) : State :=
  let a := take s
  { a.1 with link := a.1.link.placeReply (replyTo f.kind f.tag a.2) }

/-- A request frame whose length is not that of its kind is not executed: its BAD_FRAME reply takes
the slot (R202). -/
def State.rejectFrame (s : State) (st : Status) (tag : Byte) : State :=
  { s with link := s.link.placeReply (linkMade st tag) }

/-- A request as a command (log entry 4): the host's checked frame reaches the link, and where the link
may hand it on at once (no frame waits before it, R202) its block takes it. Otherwise it waits in the
request queue, or is answered LINK_FULL (R201), or is discarded in standby (R213). While the RESET line
is asserted nothing is received (R215). A request whose payload is longer than 1032 bytes, which no checked
frame can be (R200), is taken as its frame all the same (DESIGN CHOICE, log entry 31). -/
def submit (i : Instr) (take : State → Answer) (s : State) : Result :=
  match encodeRequest i with
  | none => .next s
  | some f =>
    if s.inReset then .next s
    else if s.link.standby && !(f.kind == 0x05 && f.payload.isEmpty) then .next s
    else if s.link.ready && s.link.requests.isEmpty then
      if i.wellFormed then .next (s.perform f take).transmit
      else .next (s.rejectFrame .badFrame f.tag).transmit
    else .next (s.arrive f).transmit

/-- An event at the part's blocks. While the RESET line is asserted the part stays in its reset state
(R215). After the event the transmitter, if it is free, begins what then waits (log entry 11). -/
def event (f : State → State) (s : State) : Result :=
  .next (if s.inReset then s else (f s).transmit)

end Sys2Proof.Machine
end

