-- ==== Sys2Proof/Machine/Guards.lean ====
section
/-!
DEFINITION. The Guard Table (chapter 3): which pages the FENCE and KEEP ranges cover, the lock test, and
the guard requests and the GUARD ENABLE line.
-/
namespace Sys2Proof.Machine

/-- The ranges of one mode that stand, in slot order (R47). -/
def GuardTable.ranges (g : GuardTable) (m : GuardMode) : List GuardRange :=
  (g.slots.toList.filterMap id).filter fun r => decide (r.mode = m)

/-- Some page of `count` pages from `first` lies within a range: not below its first page and not
above its last page (R47). -/
def GuardRange.meets (r : GuardRange) (first count : Nat) : Bool :=
  decide (r.first < first + count) && decide (first ≤ r.last)

/-- R25, R49: a KEEP range standing holds an image with this extent. -/
def GuardTable.keeps (g : GuardTable) (first count : Nat) : Bool :=
  (g.ranges .keep).any fun r => r.meets first count

/-- R52: the lock level and the line accept a change of the ranges. -/
def GuardTable.accepts (g : GuardTable) : Bool :=
  match g.level with
  | .unlocked => true
  | .line => g.line
  | .frozen => false

/-- A guard range record on the link (R208). -/
def GuardRange.bytes (r : GuardRange) : List Byte :=
  byte2 r.first ++ byte2 r.last ++ byte1 r.mode.code

/-- A slot as an optional part (R208). -/
def slotBytes (r : Option GuardRange) : List Byte := optionalPart 5 (r.map GuardRange.bytes)

/-- R50. -/
def takeSetGuard (slot : Byte) (first last : Half) (mode : Byte) (s : State) : Answer :=
  if h : slot.toNat < 8 then
    if first.toNat ≤ 32767 ∧ last.toNat ≤ 32767 ∧ first.toNat ≤ last.toNat then
      match GuardMode.ofCode mode with
      | none => refuse .range s
      | some m =>
        if s.guards.accepts then
          answer .ok (slotBytes s.guards.slots[slot.toNat])
            { s with guards := { s.guards with
                slots := s.guards.slots.set slot.toNat (some ⟨first.toNat, last.toNat, m⟩) } }
        else refuse .locked s
    else refuse .range s
  else refuse .range s

def execSetGuard (tag slot : Byte) (first last : Half) (mode : Byte) (s : State) : Result :=
  submit (.setGuard tag slot first last mode) (takeSetGuard slot first last mode) s

/-- R51. -/
def takeClearGuard (slot : Byte) (s : State) : Answer :=
  if h : slot.toNat < 8 then
    if s.guards.accepts then
      answer .ok (slotBytes s.guards.slots[slot.toNat])
        { s with guards := { s.guards with slots := s.guards.slots.set slot.toNat none } }
    else refuse .locked s
  else refuse .range s

def execClearGuard (tag slot : Byte) (s : State) : Result :=
  submit (.clearGuard tag slot) (takeClearGuard slot) s

/-- R53: the level after a LOCK GUARDS with this target, `none` where it is refused with LOCKED. -/
def GuardTable.lockTo (g : GuardTable) (target : LockLevel) : Option LockLevel :=
  match g.level, target with
  | .unlocked, t => some t
  | .line, .unlocked => if g.line then some .unlocked else none
  | .line, .line => some .line
  | .line, .frozen => some .frozen
  | .frozen, .frozen => some .frozen
  | .frozen, .unlocked => none
  | .frozen, .line => none

/-- R53: every reply carries the level in force after the request. -/
def takeLockGuards (level : Byte) (s : State) : Answer :=
  match LockLevel.ofCode level with
  | none => answer .range (byte1 s.guards.level.code) s
  | some t =>
    match s.guards.lockTo t with
    | none => answer .locked (byte1 s.guards.level.code) s
    | some l => answer .ok (byte1 l.code) { s with guards := { s.guards with level := l } }

def execLockGuards (tag level : Byte) (s : State) : Result :=
  submit (.lockGuards tag level) (takeLockGuards level) s

/-- R54. -/
def takeReadGuards (s : State) : Answer :=
  answer .ok
    (s.guards.slots.toList.flatMap slotBytes ++ byte1 s.guards.level.code ++
      byteOfBool s.guards.line) s

def execReadGuards (tag : Byte) (s : State) : Result := submit (.readGuards tag) takeReadGuards s

/-- R52: a change of the line records its new level, in standby too (R57). While the RESET line is
asserted the level is kept for the sampling as the part leaves reset (R56). -/
def execGuardEnableChange (high : Bool) (s : State) : Result :=
  .next ({ s with guards := { s.guards with line := high } }).transmit

end Sys2Proof.Machine
end

