-- ==== Sys2Proof/Machine/Pages.lean ====
section
/-!
DEFINITION. The Page Allocator (chapter 1): placing an extent by first fit around the FENCE ranges (R15),
taking it from the free extent list, and returning an extent with merging (R17).
-/
namespace Sys2Proof.Machine

/-- R15: the lowest page at or above `p` from which `n` pages meet no FENCE range. Each turn passes one
range for good, so as many turns as there are ranges suffice. -/
def skipFences (fences : List GuardRange) (n : Nat) : Nat → Nat → Nat
  | 0, p => p
  | turns + 1, p =>
    match fences.find? fun r => r.meets p n with
    | some r => skipFences fences n turns (r.last + 1)
    | none => p

/-- R15: the first page at which `n` pages are placed in one free extent, if a run of it is long
enough. -/
def placeIn (fences : List GuardRange) (n : Nat) (e : Extent) : Option Nat :=
  let p := skipFences fences n fences.length e.first
  if p + n ≤ e.first + e.count then some p else none

/-- R15: first fit over the free extent list, and what remains of the list. `none` is NO_SPACE (R16). -/
def allocate (fences : List GuardRange) (n : Nat) : List Extent → Option (Nat × List Extent)
  | [] => none
  | e :: es =>
    match placeIn fences n e with
    | some p =>
      let lead : List Extent := if p = e.first then [] else [⟨e.first, p - e.first⟩]
      let trail : List Extent :=
        if p + n = e.first + e.count then [] else [⟨p + n, e.first + e.count - (p + n)⟩]
      some (p, lead ++ trail ++ es)
    | none => (allocate fences n es).map fun r => (r.1, e :: r.2)

/-- R17: an extent returns at its place in the order and merges with the entries it touches. -/
def giveBack (x : Extent) : List Extent → List Extent
  | [] => [x]
  | e :: es =>
    if x.first + x.count < e.first then x :: e :: es
    else if x.first + x.count = e.first then ⟨x.first, x.count + e.count⟩ :: es
    else if e.first + e.count = x.first then
      match es with
      | [] => [⟨e.first, e.count + x.count⟩]
      | e2 :: es2 =>
        if x.first + x.count = e2.first then ⟨e.first, e.count + x.count + e2.count⟩ :: es2
        else ⟨e.first, e.count + x.count⟩ :: e2 :: es2
    else e :: giveBack x es

/-- The total of free pages (R14). -/
def freePages (free : List Extent) : Nat := (free.map Extent.count).sum

/-- R17: the pages of an image that ends return to the free extent list. -/
def State.returnPages (s : State) (i : Image) : State :=
  { s with free := giveBack ⟨i.firstPage, i.pageCount⟩ s.free }

end Sys2Proof.Machine
end

