-- ==== Sys2Proof/Machine/Images.lean ====
section
/-!
DEFINITION. What the Segment Table does with images (chapters 1 and 2): creating one (R3), making it
READY (R6), the commit attempt (R25, R26), ending images (R7), references (R34, R35), and the
cancellation of an import (R180), which LI and ST make together.
-/
namespace Sys2Proof.Machine

/-! ### Handles and live images -/

/-- An empty handle: neither part. -/
def HandleRecord.empty : HandleRecord := ⟨none, none⟩

/-- The record of a handle (section 2.1). -/
def State.handle (s : State) (h : Nat) : HandleRecord := Sparse.get HandleRecord.empty s.handles h

def State.setHandle (s : State) (h : Nat) (r : HandleRecord) : State :=
  { s with handles := Sparse.set HandleRecord.empty s.handles h r }

/-- The images of a handle. -/
def HandleRecord.images (r : HandleRecord) : List Image := r.current.toList ++ r.incoming.toList

/-- Every live image: current, incoming or retired (R14). -/
def State.liveImages (s : State) : List Image :=
  s.handles.flatMap (fun e => e.2.images) ++ s.retired.map RetiredEntry.image

/-- R14, R43: the total of pages held by live images, incoming, current and retired. -/
def State.heldPages (s : State) : Nat := (s.liveImages.map Image.pageCount).sum

/-- Changes every live image's record by a function that leaves the others as they are. -/
def State.mapImages (s : State) (f : Image → Image) : State :=
  { s with
    handles := s.handles.map fun e => (e.1, ⟨e.2.current.map f, e.2.incoming.map f⟩)
    retired := s.retired.map fun e => { e with image := f e.image } }

/-! ### Creating an image (R3, R4, R5) -/

/-- R5: 65535 is followed by 1. -/
def serialAfter (n : Nat) : Nat := if 65535 ≤ n then 1 else n + 1

/-- R5: the first value, counting upward from the counter, that is not the serial of a live image.
One value more than there are live serials is enough turns. -/
def freshSerial (live : List Nat) : Nat → Nat → Nat
  | 0, n => n
  | turns + 1, n => if n ∈ live then freshSerial live turns (serialAfter n) else n

/-- R4: the sample length divided by 256, rounded up. -/
def pagesFor (sampleLength : Nat) : Nat := (sampleLength + 255) / 256

/-- R3, R15: the image is created and becomes the handle's incoming image, or `none` where PA cannot
place it (R16). -/
def State.createImage (s : State) (h sampleLength : Nat) (source : FillSource) (commit : Bool) :
    Option (Image × State) :=
  match allocate (s.guards.ranges .fence) (pagesFor sampleLength) s.free with
  | none => none
  | some (first, free) =>
    let live := s.liveImages.map Image.serial
    let serial := freshSerial live live.length s.serialCounter
    let image : Image :=
      { ident := s.imagesMade, serial := serial, firstPage := first
        pageCount := pagesFor sampleLength, sampleLength := sampleLength, source := source
        phase := .loading commit [], refs := 0 }
    some (image,
      { s with
        free := free
        serialCounter := serialAfter serial
        imagesMade := s.imagesMade + 1 }.setHandle h { s.handle h with incoming := some image })

/-! ### Pages and completion -/

/-- R4: how many samples the last page holds, 1 to 256. -/
def Image.lastPageSamples (i : Image) : Nat := i.sampleLength - 256 * (i.pageCount - 1)

/-- R4: how many of a page's 512 bytes are sample data; the rest is fill. -/
def Image.dataBytes (i : Image) (page : Nat) : Nat :=
  if page + 1 = i.pageCount then 2 * i.lastPageSamples else 512

/-- R4: the 512 bytes stored for a page whose data is offered: 0 at each fill position, whatever was
offered there. A byte that the library flash did not answer is FFh (R173). -/
def Image.pageContents (i : Image) (page : Nat) (offered : List Byte) : List Byte :=
  (List.range 512).map fun k => if k < i.dataBytes page then offered.getD k 0xFF else 0

/-- A page index joins the written-page set, kept in ascending order without duplicates (R21). -/
def insertIndex (k : Nat) : List Nat → List Nat
  | [] => [k]
  | j :: js => if k < j then k :: j :: js else if k = j then j :: js else j :: insertIndex k js

/-- R22: the lowest page index at or above `k` missing from the set. -/
def lowestMissing : Nat → List Nat → Nat
  | k, [] => k
  | k, j :: js => if j = k then lowestMissing (k + 1) js else k

/-- R10, R21: the data of one page of a LOADING image is stored, and the index joins its set. -/
def State.writeImagePage (s : State) (h : Nat) (i : Image) (page : Nat) (offered : List Byte) : State :=
  let s1 := s.storePage (i.firstPage + page) (i.pageContents page offered)
  match i.phase with
  | .loading commit written =>
    s1.setHandle h
      { s.handle h with incoming := some { i with phase := .loading commit (insertIndex page written) } }
  | .ready _ _ | .retired _ _ => s1

/-- R11: the CRC over the check words of the image's pages in page order. -/
def State.summaryCheck (s : State) (i : Image) : Half :=
  crc ((List.range i.pageCount).flatMap fun k => bytesOfHalf (s.checkWord (i.firstPage + k)))

/-- R6: the image becomes READY: its set and its flag go, its summary check is computed and its
integrity is GOOD. -/
def State.readied (s : State) (i : Image) : Image :=
  { i with phase := .ready .good (s.summaryCheck i) }

/-! ### The commit attempt (R25, R26) and the end of images -/

inductive Disposition where
  | freed | retired
  deriving DecidableEq, Repr

def Disposition.code : Disposition → Nat
  | .freed => 0
  | .retired => 1

/-- R25, R31: the tests on a current image that is to leave its handle, in their order. -/
def State.mayLeave (s : State) (i : Image) : Option Status :=
  if s.guards.keeps i.firstPage i.pageCount then some .guarded
  else if 0 < i.refs ∧ Config.retiredPlaces ≤ s.retired.length then some .retireFull
  else none

/-- The RETIRED record of a READY image: integrity and summary check are kept (R6). -/
def Image.asRetired (i : Image) : Image :=
  match i.phase with
  | .ready g c => { i with phase := .retired g c }
  | .loading _ _ | .retired _ _ => i

/-- R26, R32: a current image that has left its handle is freed at once with a FREED notice, or
becomes the newest entry of the retired list. -/
def State.dispose (s : State) (h : Nat) (i : Image) : Disposition × State :=
  if i.refs = 0 then (.freed, (s.returnPages i).notify (.freed i.serial h i.pageCount))
  else (.retired, { s with retired := s.retired ++ [⟨h, i.asRetired⟩] })

/-- R25, R26: the commit attempt on a handle whose incoming image is READY: a refusal, or the state
with the former image's serial and disposition. -/
def State.commitAttempt (s : State) (h : Nat) (incoming : Image) :
    Except Status (Option (Nat × Disposition) × State) :=
  match (s.handle h).current with
  | none => .ok (none, s.setHandle h ⟨some incoming, none⟩)
  | some old =>
    match s.mayLeave old with
    | some refusal => .error refusal
    | none =>
      let d := (s.setHandle h ⟨some incoming, none⟩).dispose h old
      .ok (some (old.serial, d.1), d.2)

/-- R7, R29: an incoming image is discarded: its record goes and its whole extent returns, with no
FREED notice. -/
def State.discardIncoming (s : State) (h : Nat) : State :=
  match (s.handle h).incoming with
  | none => s
  | some i => (s.setHandle h { s.handle h with incoming := none }).returnPages i

/-! ### The import in flight (R180) -/

/-- R180: the import in flight is cancelled: the transaction ends, the CANCELLED notice is queued, the
record goes, and ST discards the image. -/
def State.cancelImport (s : State) (cause : CancelCause) : State :=
  match s.importer.record with
  | none => s
  | some r =>
    ({ s with importer := { s.importer with record := none, reading := none } }.notify
      (.importEnd r.handle r.serial (.cancelled r.nextPage cause))).discardIncoming r.handle

/-- R30: the handle's incoming image is being filled by the import in flight. -/
def State.importFills (s : State) (h : Nat) : Bool :=
  match s.importer.record with
  | none => false
  | some r => r.handle == h

/-- R29, R30: the incoming image of a handle is discarded, its import cancelled first if one is in
flight. The first component says whether an import was cancelled. -/
def State.dropIncoming (s : State) (h : Nat) (cause : CancelCause) : Bool × State :=
  if s.importFills h then (true, s.cancelImport cause) else (false, s.discardIncoming h)

/-! ### References (R34, R35) -/

/-- R34: the four answers to a begin claim. DAMAGED_IMAGE and SKIP carry the image's serial; PLAY carries
its serial, first page, page count and sample length, here with the rest of its record. -/
inductive ClaimAnswer where
  | noImage
  | damagedImage (serial : Nat)
  | skip (serial : Nat)
  | play (i : Image)
  deriving DecidableEq, Repr

/-- R8: the integrity of a READY or RETIRED image is DAMAGED. -/
def Image.damaged (i : Image) : Bool :=
  match i.phase with
  | .ready (.damaged _ _) _ | .retired (.damaged _ _) _ => true
  | .ready .good _ | .retired .good _ | .loading _ _ => false

/-- R34: what a claim on a handle is answered under a damage policy. -/
def State.claimAnswer (s : State) (h : Nat) (policy : DamagePolicy) : ClaimAnswer :=
  match (s.handle h).current with
  | none => .noImage
  | some i =>
    if i.damaged then
      match policy with
      | .fault => .damagedImage i.serial
      | .skip => .skip i.serial
      | .playAnyway => .play i
    else .play i

/-- R34: a claim answered PLAY raises the image's reference count by 1. -/
def State.takeReference (s : State) (h : Nat) (i : Image) : State :=
  s.setHandle h { s.handle h with current := some { i with refs := i.refs + 1 } }

/-- One reference fewer on the image of this serial. -/
def Image.released (serial : Nat) (i : Image) : Image :=
  if i.serial = serial then { i with refs := i.refs - 1 } else i

/-- R35: a reference is released; a RETIRED image whose count is then 0 leaves the list and is freed
with its FREED notice. -/
def State.release (s : State) (serial : Nat) : State :=
  let s1 := s.mapImages (Image.released serial)
  match s1.retired.find? fun e => decide (e.image.serial = serial ∧ e.image.refs = 0) with
  | none => s1
  | some e =>
    ({ s1 with retired := s1.retired.erase e }.returnPages e.image).notify
      (.freed serial e.origin e.image.pageCount)

end Sys2Proof.Machine
end

