-- ==== Sys2Proof/Machine/Flags.lean ====
section
/-!
DEFINITION. Conditions, latches and shared flags (chapter 6): what a test reads and consumes, what
writes a latch or a flag, and which channels are handed an operand change.
-/
namespace Sys2Proof.Machine

/-! ### Tests -/

/-- R115, code LAST: the loop stack is not empty and its innermost record has termination COUNT with
remaining count 1. -/
def lastTrue : List LoopRecord → Bool
  | ⟨_, _, .count 1⟩ :: _ => true
  | _ => false

/-- R115: the operand of a condition, as it stands for a channel. -/
def State.operand (s : State) (c : Chan) : Operand → Bool
  | .trig n => (s.latches c).trig.getLsbD n.val
  | .soft => (s.latches c).soft
  | .flag n => s.flags.getLsbD n.val
  | .timer => (s.timer c).expired
  | .last => lastTrue (s.engine c).loops
  | .always => true

/-- R116: the latch of a latch code is cleared; the other operands stay. -/
def State.consume (s : State) (c : Chan) : Operand → State
  | .trig n => s.setLatches c { s.latches c with trig := (s.latches c).trig &&& ~~~(1#4 <<< n.val) }
  | .soft => s.setLatches c { s.latches c with soft := false }
  | .timer => s.setTimer c { s.timer c with expired := false }
  | .flag _ | .last | .always => s

/-- R115, R116: a channel tests a condition; a true test with sense NORMAL consumes a latch. -/
def State.test (s : State) (c : Chan) (q : Condition) : Bool × State :=
  if q.negated then (!s.operand c q.operand, s)
  else if s.operand c q.operand then (true, s.consume c q.operand)
  else (false, s)

/-! ### Standing tests -/

/-- R125: the condition a channel's standing test reads, if it has one. -/
def Engine.standing (e : Engine) : Option Condition :=
  match e.run, e.activity with
  | .armed, _ => e.start
  | .running, .waiting w => some w.release
  | .paused, .waiting w => some w.release
  | _, _ => none

/-- R125: an operand change is handed to each channel whose standing test reads an operand that
changed for it. -/
def State.handChanges (s : State) (changed : Chan → Operand → Bool) : State :=
  s.eachChannel fun c s =>
    match (s.engine c).standing with
    | some q => if changed c q.operand then s.hand (.operandChange c) else s
    | none => s

/-! ### Writes of flags and latches -/

/-- R123, R124: the flags are written as one write, and each flag whose value changed is a flag
change. -/
def State.writeFlags (s : State) (flags : BitVec 8) : State :=
  let changed := flags ^^^ s.flags
  { s with flags := flags }.handChanges fun _ o =>
    match o with
    | .flag n => changed.getLsbD n.val
    | _ => false

/-- R123: a SIGNAL step's action on one flag. -/
def flagAfter (flags : BitVec 8) (n : Fin 8) : FlagAction → BitVec 8
  | .set => flags ||| (1#8 <<< n.val)
  | .clear => flags &&& ~~~(1#8 <<< n.val)
  | .toggle => flags ^^^ (1#8 <<< n.val)

/-- R119: a trigger arrival reaches the channel: its routing includes the line and its run state is
ARMED, RUNNING or PAUSED. -/
def State.hearsTrigger (s : State) (c : Chan) (n : Fin 4) : Bool :=
  (s.engine c).run.active && (s.latches c).routing.getLsbD n.val

/-- R119: a trigger arrival on a line sets the latch of every channel it reaches, and then hands the
change to those whose standing test reads it. -/
def State.triggerArrival (s : State) (n : Fin 4) : State :=
  let s1 := s.eachChannel fun c s =>
    if s.hearsTrigger c n then
      s.setLatches c { s.latches c with trig := (s.latches c).trig ||| (1#4 <<< n.val) }
    else s
  s1.handChanges fun c o => s.hearsTrigger c n && o == .trig n

/-- R121: the software trigger reaches the channels named in the mask that are ARMED, RUNNING or
PAUSED. -/
def State.hearsSoftware (s : State) (mask : Byte) (c : Chan) : Bool :=
  mask.getLsbD c.val && (s.engine c).run.active

/-- R121: the software trigger latches are set and the changes handed on. -/
def State.softwareTrigger (s : State) (mask : Byte) : State :=
  let s1 := s.eachChannel fun c s =>
    if s.hearsSoftware mask c then s.setLatches c { s.latches c with soft := true } else s
  s1.handChanges fun c o => s.hearsSoftware mask c && o == .soft

/-- R122: the trigger latches and the software trigger latch are cleared; the routing stays. -/
def State.clearLatches (s : State) (c : Chan) : State :=
  s.setLatches c { s.latches c with trig := 0, soft := false }

/-! ### Timers (R149, R150) -/

/-- R150: the timer expires: it stops at 0, sets its latch, reports if enabled and hands on the
change. -/
def State.expireTimer (s : State) (c : Chan) : State :=
  let t := s.timer c
  let s1 := s.setTimer c { t with running := false, count := 0, expired := true }
  let s2 := if t.notify then s1.notify (.timer c) else s1
  match (s2.engine c).standing with
  | some q => if q.operand = .timer then s2.hand (.operandChange c) else s2
  | none => s2

/-- R149: a tap event reaches a channel's timer: a RUNNING timer that counts this tap goes down by
one, and expires at 0. -/
def State.tapTimer (s : State) (c : Chan) (tap : Fin 8) : State :=
  let t := s.timer c
  if t.running && t.tap == tap then
    if t.count ≤ 1 then s.expireTimer c else s.setTimer c { t with count := t.count - 1 }
  else s

/-- R149: a TIMER step loads and starts the timer and clears its expiry latch. -/
def State.loadTimer (s : State) (c : Chan) (preset : Nat) (tap : Fin 8) : State :=
  s.setTimer c { s.timer c with running := true, count := preset, tap := tap, expired := false }

/-- R151: the timer is made STOPPED; its count and tap stay, and its latch too. -/
def State.haltTimer (s : State) (c : Chan) : State :=
  s.setTimer c { s.timer c with running := false }

/-- R101, R102: the timer is made STOPPED with its expiry latch cleared. -/
def State.clearTimer (s : State) (c : Chan) : State :=
  s.setTimer c { s.timer c with running := false, expired := false }

end Sys2Proof.Machine
end

