-- ==== Sys2Proof/Machine/OutputStage.lean ====
section
/-!
DEFINITION. The Output Stage (chapter 8): the played code (R160), saturation (R161), what the port
carries (R162, R163), rest at the end of a run (R164), the markers (R165, R166), and SET OUTPUT and
READ OUTPUT.
-/
namespace Sys2Proof.Machine

/-! ### Arithmetic (section 8.2) -/

/-- R160: division by 2²⁸, rounded to the nearest integer, a half away from zero. -/
def roundQuotient (q : Int) : Int :=
  if 0 ≤ q then (q + 134217728) / 268435456 else -((-q + 134217728) / 268435456)

/-- R160: a sample with gain, scale (absent is 4000h) and offset, before saturation; nothing here
saturates or wraps. -/
def scaledCode (g : OutputSettings) (scale : Option Half) (sample : Half) : Int :=
  roundQuotient (sample.toInt * g.gain.toInt * (scale.getD 0x4000).toInt) + g.offset.toInt

/-- R161: a value is limited to the clamp pair; the second component says that this changed it. -/
def saturate (g : OutputSettings) (v : Int) : Half × Bool :=
  if v < g.clampLow.toInt then (g.clampLow, true)
  else if g.clampHigh.toInt < v then (g.clampHigh, true)
  else (BitVec.ofInt 16 v, false)

/-! ### Lines -/

/-- R166: the level of a marker line from its logical level and polarity. -/
def markerLine (level invert : Bool) : Bool := level != invert

/-- R166: both marker lines take the level of their logical levels and polarities. -/
def Output.driveLines (o : Output) : Output :=
  { o with
    lineA := markerLine o.levelA o.inForce.invertA
    lineB := markerLine o.levelB o.inForce.invertB }

/-- R165. -/
def MarkerAction.apply (level : Bool) : MarkerAction → Bool
  | .keep => level
  | .set => true
  | .clear => false

/-- R165: the actions of a PLAY on both markers. -/
def Output.mark (o : Output) (a b : MarkerAction) : Output :=
  { o with levelA := a.apply o.levelA, levelB := b.apply o.levelB }

/-- R164: the rest level in force goes on the port at once, and both markers are driven inactive. -/
def Output.toRest (o : Output) : Output :=
  { o with port := o.inForce.rest, portKind := .rest, levelA := false, levelB := false }.driveLines

/-- R168: the pending record, if one is held, becomes the settings in force, whole. -/
def Output.settle (o : Output) : Output :=
  match o.pending with
  | none => o
  | some g => { o with inForce := g, pending := none }

/-! ### The code a sample period carries -/

/-- The rest level in force (R162). -/
def Output.carryRest (o : Output) : Output := { o with port := o.inForce.rest, portKind := .rest }

/-- R162, R163: a played code is carried, saturated to the clamp pair in force. A last played code that a
clamp pair left outside it while the channel carried the rest level is saturated here, when a WAIT
carries it (DESIGN CHOICE, log entry 25). -/
def Output.carry (o : Output) (code : Half) : Output :=
  let r := saturate o.inForce code.toInt
  { o with port := r.1, portKind := .carried, clipped := o.clipped || r.2 }

/-- R160: a sample is delivered; its played code goes on the port. -/
def Output.deliver (o : Output) (scale : Option Half) (sample : Half) : Output :=
  let r := saturate o.inForce (scaledCode o.inForce scale sample)
  { o with port := r.1, portKind := .played, clipped := o.clipped || r.2 }

/-! ### On a channel -/

def State.restOutput (s : State) (c : Chan) : State := s.setOutput c (s.output c).toRest

def State.markOutput (s : State) (c : Chan) (a b : MarkerAction) : State :=
  s.setOutput c ((s.output c).mark a b)

/-- A sample period in which the channel carries the rest level. -/
def State.carryRest (s : State) (c : Chan) : State :=
  s.setOutput c (s.output c).carryRest.driveLines

/-- A sample period in which the channel carries a played code; a code that saturation changed
replaces the last played code (R163). -/
def State.carryCode (s : State) (c : Chan) (code : Half) : State :=
  let o := ((s.output c).carry code).driveLines
  (s.setOutput c o).setEngine c { s.engine c with lastCode := some o.port }

/-- A sample period in which the channel delivers a sample; its code becomes the last played code. -/
def State.deliverSample (s : State) (c : Chan) (scale : Option Half) (sample : Half) : State :=
  let o := ((s.output c).deliver scale sample).driveLines
  (s.setOutput c o).setEngine c { s.engine c with lastCode := some o.port }

/-! ### Requests -/

/-- The eight settings on the link, 13 bytes (R208). -/
def OutputSettings.bytes (g : OutputSettings) : List Byte :=
  bytesOfHalf g.gain ++ bytesOfHalf g.offset ++ bytesOfHalf g.clampLow ++ bytesOfHalf g.clampHigh ++
    bytesOfHalf g.rest ++ byteOfBool g.enable ++ byteOfBool g.invertA ++ byteOfBool g.invertB

/-- R168. -/
def takeSetOutput (channel : Byte) (gain offset clampLow clampHigh rest : Half)
    (enable polarityA polarityB : Byte) (s : State) : Answer :=
  match chanOfCode channel, boolOfCode enable, boolOfCode polarityA, boolOfCode polarityB with
  | some c, some e, some a, some b =>
    if clampHigh.toInt < clampLow.toInt then refuse .range s
    else if rest.toInt < clampLow.toInt ∨ clampHigh.toInt < rest.toInt then refuse .range s
    else
      let g : OutputSettings := ⟨gain, offset, clampLow, clampHigh, rest, e, a, b⟩
      answer .ok g.bytes (s.setOutput c { s.output c with pending := some g })
  | _, _, _, _ => refuse .range s

def execSetOutput (tag channel : Byte) (gain offset clampLow clampHigh rest : Half)
    (enable polarityA polarityB : Byte) (s : State) : Result :=
  submit (.setOutput tag channel gain offset clampLow clampHigh rest enable polarityA polarityB)
    (takeSetOutput channel gain offset clampLow clampHigh rest enable polarityA polarityB) s

/-- R169: the kind of the port code as reported: a played code that the hold carries is CARRIED
(DEDUCED, log entry 15). One that a pause carries is PLAYED until the channel's first sample period in
the pause, and CARRIED from then on (DESIGN CHOICE, log entry 28). -/
def Channel.portKind (x : Channel) : PortKind :=
  match x.output.portKind with
  | .played => if x.engine.held then .carried else .played
  | .carried => .carried
  | .rest => .rest

/-- R167: the output-enable line follows the output enable in force. -/
def Output.enableLine (o : Output) : Bool := o.inForce.enable

/-- R169: the results of READ OUTPUT. -/
def Channel.outputBytes (x : Channel) : List Byte :=
  let o := x.output
  o.inForce.bytes ++ optionalPart 13 (o.pending.map OutputSettings.bytes) ++ bytesOfHalf o.port ++
    byte1 x.portKind.code ++ byteOfBool o.levelA ++ byteOfBool o.levelB ++ byteOfBool o.lineA ++
    byteOfBool o.lineB ++ byteOfBool o.enableLine ++ byteOfBool o.clipped

/-- R169: the reply is assembled, and then the clipped indicator is cleared. -/
def takeReadOutput (channel : Byte) (s : State) : Answer :=
  match chanOfCode channel with
  | none => refuse .range s
  | some c =>
    answer .ok (s.chan c).outputBytes (s.setOutput c { s.output c with clipped := false })

def execReadOutput (tag channel : Byte) (s : State) : Result :=
  submit (.readOutput tag channel) (takeReadOutput channel) s

end Sys2Proof.Machine
end

