-- ==== Sys2Proof/Machine/StepStore.lean ====
section
/-!
DEFINITION. The Step Store (chapter 4): the step record's layout read and written (R66, R67), the
checks of R75, windows (R60), and the requests on the store.
-/
namespace Sys2Proof.Machine

/-! ### The record's layout -/

/-- R75: the reason a record fails, in the order of the checks. -/
inductive StepReason where
  | kind | reserved | count | preset | tap | flag | action | condition
  deriving DecidableEq, Repr

def StepReason.code : StepReason → Nat
  | .kind => 1
  | .reserved => 2
  | .count => 3
  | .preset => 4
  | .tap => 5
  | .flag => 6
  | .action => 7
  | .condition => 8

/-- A field of a step record: bits `lo` to `lo + n - 1`, byte 0 lowest. -/
def field (r : BitVec 64) (lo n : Nat) : BitVec n := r.extractLsb' lo n

/-- A mask with the bits `lo` to `lo + n - 1` set. -/
def bits (lo n : Nat) : BitVec 64 := BitVec.ofNat 64 ((2 ^ n - 1) * 2 ^ lo)

/-- R65, R66: the bits that the layout assigns to a field of the record's kind and form. Bits of a
field marked absent, or that the form does not use, are not assigned. -/
def assignedBits (r : BitVec 64) : BitVec 64 :=
  bits 0 4 |||
  match (field r 0 4).toNat with
  | 1 =>
    bits 4 2 ||| bits 8 8 ||| bits 16 10 ||| bits 32 16 |||
      (if r.getLsbD 5 then bits 26 6 else 0) ||| (if r.getLsbD 4 then bits 48 16 else 0)
  | 2 => bits 4 1 ||| bits 16 12 ||| (if r.getLsbD 4 then bits 8 6 else bits 32 16)
  | 3 => bits 4 1 ||| bits 8 6 ||| bits 16 12
  | 4 => bits 16 12
  | 6 => bits 4 1 ||| bits 8 6
  | 7 => bits 8 8 ||| bits 32 16
  | 8 => bits 4 2 ||| bits 24 8 ||| (if r.getLsbD 4 then bits 8 8 ||| bits 16 8 else 0)
  | _ => 0

/-- R66: a marker action code, 0 KEEP, 1 SET, 2 CLEAR. -/
def MarkerAction.ofCode (k : Nat) : Option MarkerAction :=
  if k = 0 then some .keep else if k = 1 then some .set else if k = 2 then some .clear else none

def MarkerAction.code : MarkerAction → Nat
  | .keep => 0
  | .set => 1
  | .clear => 2

/-- R66: a flag action code, 0 SET, 1 CLEAR, 2 TOGGLE. -/
def FlagAction.ofCode (k : Nat) : Option FlagAction :=
  if k = 0 then some .set else if k = 1 then some .clear else if k = 2 then some .toggle else none

def FlagAction.code : FlagAction → Nat
  | .set => 0
  | .clear => 1
  | .toggle => 2

/-- The condition field at bit `lo`: five bits of code and one of sense (R67). -/
def conditionField (r : BitVec 64) (lo : Nat) : Option Condition :=
  Condition.ofCode (field r lo 5).toNat (r.getLsbD (lo + 5))

/-- R75 for a PLAY past its RESERVED check: COUNT, ACTION, CONDITION. -/
def checkPlay (r : BitVec 64) : Except StepReason Step :=
  if field r 32 16 = 0 then .error .count
  else
    match MarkerAction.ofCode (field r 8 2).toNat, MarkerAction.ofCode (field r 10 2).toNat,
      MarkerAction.ofCode (field r 12 2).toNat, MarkerAction.ofCode (field r 14 2).toNat with
    | some aStart, some aEnd, some bStart, some bEnd =>
      let scale := if r.getLsbD 4 then some (field r 48 16) else none
      if r.getLsbD 5 then
        match conditionField r 26 with
        | some q =>
          .ok (.play (field r 16 10) (field r 32 16) aStart aEnd bStart bEnd scale (some q))
        | none => .error .condition
      else .ok (.play (field r 16 10) (field r 32 16) aStart aEnd bStart bEnd scale none)
    | _, _, _, _ => .error .action

/-- R75 for a LOOP past its RESERVED check: COUNT, CONDITION. -/
def checkLoop (r : BitVec 64) : Except StepReason Step :=
  if r.getLsbD 4 then
    match conditionField r 8 with
    | some q => .ok (.loop (field r 16 12) (.condition q))
    | none => .error .condition
  else if field r 32 16 = 0 then .error .count
  else .ok (.loop (field r 16 12) (.count (field r 32 16)))

/-- R75 for a TIMER past its RESERVED check: PRESET, TAP. -/
def checkTimer (r : BitVec 64) : Except StepReason Step :=
  if field r 32 16 = 0 then .error .preset
  else if h : (field r 8 8).toNat < 8 then .ok (.timer (field r 32 16) ⟨(field r 8 8).toNat, h⟩)
  else .error .tap

/-- R75 for a SIGNAL past its RESERVED check: FLAG, ACTION. -/
def checkSignal (r : BitVec 64) : Except StepReason Step :=
  if r.getLsbD 4 then
    if h : (field r 8 8).toNat < 8 then
      match FlagAction.ofCode (field r 16 8).toNat with
      | some a =>
        .ok (.signal (some (⟨(field r 8 8).toNat, h⟩, a)) (r.getLsbD 5) (field r 24 8))
      | none => .error .action
    else .error .flag
  else .ok (.signal none (r.getLsbD 5) (field r 24 8))

/-- R75: the checks of one record, in their order: the step it holds, or the reason of its first
failing check. -/
def checkRecord (r : BitVec 64) : Except StepReason Step :=
  if 9 ≤ (field r 0 4).toNat then .error .kind
  else if r &&& ~~~assignedBits r ≠ 0 then .error .reserved
  else
    match (field r 0 4).toNat with
    | 0 => .ok .stop
    | 1 => checkPlay r
    | 2 => checkLoop r
    | 3 =>
      match conditionField r 8 with
      | some q => .ok (.branch q (field r 16 12) (r.getLsbD 4))
      | none => .error .condition
    | 4 => .ok (.call (field r 16 12))
    | 5 => .ok .ret
    | 6 =>
      match conditionField r 8 with
      | some q => .ok (.wait q (if r.getLsbD 4 then .rest else .holdLast))
      | none => .error .condition
    | 7 => checkTimer r
    | _ => checkSignal r

/-- A value placed at bit `lo` of a record. -/
def place (lo : Nat) (v : Nat) : BitVec 64 := BitVec.ofNat 64 v <<< lo

/-- R66: the record of a step, every unassigned bit zero. -/
def Step.record : Step → BitVec 64
  | .stop => 0
  | .play h n aStart aEnd bStart bEnd scale hold =>
    place 0 1 ||| place 4 (if scale.isSome then 1 else 0) ||| place 5 (if hold.isSome then 1 else 0) |||
    place 8 aStart.code ||| place 10 aEnd.code ||| place 12 bStart.code ||| place 14 bEnd.code |||
    place 16 h.toNat ||| place 26 ((hold.map Condition.bits).getD 0) ||| place 32 n.toNat |||
    place 48 ((scale.map BitVec.toNat).getD 0)
  | .loop last (.count n) => place 0 2 ||| place 16 last.toNat ||| place 32 n.toNat
  | .loop last (.condition q) => place 0 2 ||| place 4 1 ||| place 8 q.bits ||| place 16 last.toNat
  | .branch q target leave =>
    place 0 3 ||| place 4 (if leave then 1 else 0) ||| place 8 q.bits ||| place 16 target.toNat
  | .call target => place 0 4 ||| place 16 target.toNat
  | .ret => place 0 5
  | .wait q out => place 0 6 ||| place 4 (if out = .rest then 1 else 0) ||| place 8 q.bits
  | .timer preset tap => place 0 7 ||| place 8 tap.val ||| place 32 preset.toNat
  | .signal flag notify code =>
    place 0 8 ||| place 4 (if flag.isSome then 1 else 0) ||| place 5 (if notify then 1 else 0) |||
    place 8 ((flag.map fun x => x.1.val).getD 0) ||| place 16 ((flag.map fun x => x.2.code).getD 0) |||
    place 24 code.toNat

/-! ### Windows -/

/-- R60: the sum of the sizes of the channels before this one. -/
def State.windowStart (s : State) (c : Chan) : Nat := (s.partition.toList.take c.val).sum

/-- R60. -/
def State.windowSize (s : State) (c : Chan) : Nat := s.partition[c]

/-- R58: the step at an absolute position. -/
def State.stepAt (s : State) (position : Nat) : Step := Sparse.get .stop s.steps position

/-- R60, R78: the step at a local index of a channel's window. -/
def State.localStep (s : State) (c : Chan) (k : Nat) : Step := s.stepAt (s.windowStart c + k)

/-- Steps written at consecutive absolute positions. -/
def writeStepsAt : Sparse Step → Nat → List Step → Sparse Step
  | m, _, [] => m
  | m, k, x :: xs => writeStepsAt (Sparse.set .stop m k x) (k + 1) xs

/-- R75: every record is checked in request order; the first that fails gives its position and
reason. -/
def checkRecords : Nat → List (BitVec 64) → Except (Nat × StepReason) (List Step)
  | _, [] => .ok []
  | k, r :: rs =>
    match checkRecord r with
    | .error reason => .error (k, reason)
    | .ok x =>
      match checkRecords (k + 1) rs with
      | .error e => .error e
      | .ok xs => .ok (x :: xs)

/-! ### Requests -/

/-- The eight window sizes in steps on the link (R208). -/
def sizesBytes (p : Vector Nat 8) : List Byte := p.toList.flatMap byte2

/-- R61: any channel is ARMED, RUNNING or PAUSED. -/
def State.anyActive (s : State) : Bool := allChannels.any fun c => (s.engine c).run.active

/-- R60, R61: the eight window sizes of unit counts of 64 steps. -/
def sizesOf (counts : List Byte) : Vector Nat 8 :=
  Vector.ofFn fun c : Chan => 64 * (counts.getD c.val 0).toNat

/-- R61: every reply carries the eight window sizes in force after the request. -/
def takeSetPartition (counts : List Byte) (s : State) : Answer :=
  if (counts.any fun k => decide (64 < k.toNat)) ∨ 64 < (counts.map BitVec.toNat).sum then
    answer .range (sizesBytes s.partition) s
  else if s.anyActive then answer .channelActive (sizesBytes s.partition) s
  else answer .ok (sizesBytes (sizesOf counts)) { s with partition := sizesOf counts }

def execSetPartition (tag : Byte) (counts : List Byte) (s : State) : Result :=
  submit (.setPartition tag counts) (takeSetPartition counts) s

/-- R74. The position in the RANGE reply of a failing record is one byte, as a record count is
(DEDUCED, log entry 14). -/
def takeWriteSteps (channel : Byte) (first : Half) (count : Byte) (records : List (BitVec 64))
    (s : State) : Answer :=
  match chanOfCode channel with
  | none => refuse .range s
  | some c =>
    if count.toNat = 0 ∨ 128 < count.toNat then refuse .range s
    else if (s.engine c).run.active then refuse .channelActive s
    else if s.windowSize c < first.toNat + count.toNat then refuse .badWindow s
    else
      match checkRecords 0 records with
      | .error (k, reason) =>
        answer .range (byte1 k ++ byte2 (first.toNat + k) ++ byte1 reason.code) s
      | .ok xs =>
        answer .ok [] { s with steps := writeStepsAt s.steps (s.windowStart c + first.toNat) xs }

def execWriteSteps (tag channel : Byte) (first : Half) (count : Byte) (records : List (BitVec 64))
    (s : State) : Result :=
  submit (.writeSteps tag channel first count records) (takeWriteSteps channel first count records) s

/-- R77. -/
def takeReadSteps (channel : Byte) (first : Half) (count : Byte) (s : State) : Answer :=
  match chanOfCode channel with
  | none => refuse .range s
  | some c =>
    if count.toNat = 0 ∨ 128 < count.toNat then refuse .range s
    else if s.windowSize c < first.toNat + count.toNat then refuse .badWindow s
    else
      answer .ok
        (byte2 (s.windowStart c) ++ byte2 (s.windowSize c) ++ bytesOfHalf first ++ [count] ++
          (List.range count.toNat).flatMap fun k =>
            bytesOfRecord (s.localStep c (first.toNat + k)).record) s

def execReadSteps (tag channel : Byte) (first : Half) (count : Byte) (s : State) : Result :=
  submit (.readSteps tag channel first count) (takeReadSteps channel first count) s

end Sys2Proof.Machine
end

