-- ==== Sys2Proof/Machine/Engine.lean ====
section
/-!
DEFINITION. What a channel engine does (chapter 5): ends of a run (R101, R102, R107), each step kind
(R88 to R100), sequential advance and the loop test (R86, R93), taking steps (R85), passes (R89, R90),
starts (R84), releases of a WAIT (R98) and pauses (R106).
-/
namespace Sys2Proof.Machine

/-! ### The ends of a run -/

/-- R102 step 1, R107 step 1: a channel in a PLAY step releases the reference it holds. -/
def State.endReference (s : State) (c : Chan) : State :=
  match (s.engine c).activity with
  | .playing p | .holding p => s.release p.serial
  | .between | .waiting _ => s

/-- R80: the engine of a channel that is IDLE; its policies and its LINE reason stay (R105). -/
def Engine.toIdle (e : Engine) : Engine :=
  { Engine.reset with
    linePause := e.linePause
    policy := e.policy
    pauseRouting := e.pauseRouting }

/-- The engine, timer, latches and output of a channel whose run ends, or that leaves FAULTED: stacks
and play record emptied, timer stopped with its latch cleared, latches cleared, output at rest. -/
def State.idleChannel (s : State) (c : Chan) : State :=
  let s1 := (((s.setEngine c (s.engine c).toIdle).clearTimer c).clearLatches c)
  s1.restOutput c

/-- R101, R102: the run ends: reference released, the channel IDLE with its output at rest, and a
RUN_END notice with the step index at which it stood. A channel at a STOP step holds no reference. -/
def State.endRun (s : State) (c : Chan) (cause : RunEndCause) : State :=
  ((s.endReference c).idleChannel c).notify (.runEnd c cause (s.engine c).index none)

/-- R107: the engine of a channel that faults; its step index and its stacks are kept. -/
def Engine.toFaulted (e : Engine) (f : FaultRecord) : Engine :=
  { e with
    run := .faulted
    activity := .between
    held := false
    requestPause := false
    stopPending := false
    start := none
    stepsAtEvent := 0
    fault := some f }

/-- R107: the channel faults at the step at its step index. -/
def State.faultChannel (s : State) (c : Chan) (cause : FaultCause) (handle : Option Nat) : State :=
  let s1 := s.endReference c
  let e := s1.engine c
  let f : FaultRecord := ⟨cause, e.index, handle, e.loops.length, e.returns.length⟩
  (((s1.setEngine c (e.toFaulted f)).haltTimer c).restOutput c).notify
    (.runEnd c .fault e.index (some f))

/-! ### Sequential advance and the loop test -/

/-- The step index and loop stack of a channel change. -/
def State.setLoops (s : State) (c : Chan) (loops : List LoopRecord) : State :=
  s.setEngine c { s.engine c with loops := loops }

def State.goTo (s : State) (c : Chan) (k : Nat) : State :=
  s.setEngine c { s.engine c with index := k }

/-- R86, R93: the loop test at the step at index `i`, and again on each record that a pop makes
innermost and that ends on the same step: the next index, and the state the tests leave. As many
turns as there are records suffice. -/
def State.loopTest (s : State) (c : Chan) (i : Nat) : Nat → Nat × State
  | 0 => (i + 1, s)
  | turns + 1 =>
    match (s.engine c).loops with
    | [] => (i + 1, s)
    | r :: rest =>
      if r.last = i then
        match r.termination with
        | .count k =>
          if k ≤ 1 then (s.setLoops c rest).loopTest c i turns
          else (r.first, s.setLoops c ({ r with termination := .count (k - 1) } :: rest))
        | .condition q =>
          let t := s.test c q
          if t.1 then (t.2.setLoops c rest).loopTest c i turns else (r.first, t.2)
      else (i + 1, s)

/-- R86: a sequential advance from the step index; at the window's end the channel faults. The second
component says that the channel goes on. -/
def State.advance (s : State) (c : Chan) : State × Bool :=
  let n := s.loopTest c (s.engine c).index (s.engine c).loops.length
  if n.1 < n.2.windowSize c then (n.2.goTo c n.1, true)
  else (n.2.faultChannel c .windowEnd none, false)

/-! ### The step kinds -/

/-- R88: the play record of a step whose claim was answered PLAY. -/
def playRecord (i : Image) (handle passCount : Nat) (scale : Option Half) (hold : Option Condition)
    (aEnd bEnd : MarkerAction) : PlayRecord where
  serial := i.serial
  firstPage := i.firstPage
  pageCount := i.pageCount
  sampleLength := i.sampleLength
  handle := handle
  passCount := passCount
  scale := scale
  hold := hold
  aEnd := aEnd
  bEnd := bEnd
  pass := 1
  holdPass := 0
  position := 0

/-- R88, R34: the begin claim of a PLAY step and what the engine does with its answer. -/
def State.playStep (s : State) (c : Chan) (handle passCount : Nat)
    (aStart aEnd bStart bEnd : MarkerAction) (scale : Option Half) (hold : Option Condition) :
    State × Bool :=
  match s.claimAnswer handle (s.engine c).policy with
  | .noImage => (s.faultChannel c .noImage (some handle), false)
  | .damagedImage _ => (s.faultChannel c .damagedImage (some handle), false)
  | .skip _ => s.advance c
  | .play i =>
    let s1 := (s.takeReference handle i).markOutput c aStart bStart
    (s1.setEngine c { s1.engine c with
      activity := .playing (playRecord i handle passCount scale hold aEnd bEnd) }, false)

/-- R92: the kinds a LOOP's last step must not be. -/
def Step.mayEndLoop : Step → Bool
  | .call _ | .branch _ _ _ | .ret | .stop | .loop _ _ => false
  | .play _ _ _ _ _ _ _ _ | .wait _ _ | .timer _ _ | .signal _ _ _ => true

/-- R92: the termination of the loop record a LOOP step pushes. -/
def LoopEnd.termination : LoopEnd → Termination
  | .count n => .count n.toNat
  | .condition q => .condition q

/-- R92. -/
def State.loopStep (s : State) (c : Chan) (last : Nat) (ending : LoopEnd) : State × Bool :=
  let e := s.engine c
  if last ≤ e.index ∨ s.windowSize c ≤ last then (s.faultChannel c .badLoopEnd none, false)
  else if !(s.localStep c last).mayEndLoop then (s.faultChannel c .badLoopEnd none, false)
  else if 6 ≤ e.loops.length then (s.faultChannel c .loopOverflow none, false)
  else ((s.setLoops c (⟨e.index + 1, last, ending.termination⟩ :: e.loops)).goTo c (e.index + 1), true)

/-- R95. -/
def State.branchStep (s : State) (c : Chan) (q : Condition) (target : Nat) (leaveLoop : Bool) :
    State × Bool :=
  if s.windowSize c ≤ target then (s.faultChannel c .badTarget none, false)
  else
    let t := s.test c q
    if t.1 then
      let s1 := if leaveLoop then t.2.setLoops c (t.2.engine c).loops.tail else t.2
      (s1.goTo c target, true)
    else t.2.advance c

/-- R96. -/
def State.callStep (s : State) (c : Chan) (target : Nat) : State × Bool :=
  let e := s.engine c
  if s.windowSize c ≤ target then (s.faultChannel c .badTarget none, false)
  else if 4 ≤ e.returns.length then (s.faultChannel c .returnOverflow none, false)
  else
    (s.setEngine c { e with
      returns := ⟨e.index + 1, e.loops.length⟩ :: e.returns, index := target }, true)

/-- R97. -/
def State.returnStep (s : State) (c : Chan) : State × Bool :=
  let e := s.engine c
  match e.returns with
  | [] => (s.faultChannel c .returnEmpty none, false)
  | r :: rest =>
    if s.windowSize c ≤ r.index then (s.faultChannel c .windowEnd none, false)
    else
      (s.setEngine c { e with
        returns := rest
        loops := e.loops.drop (e.loops.length - r.depth)
        index := r.index }, true)

/-- R98: a WAIT is entered, or ends at once when its condition tests true. -/
def State.waitStep (s : State) (c : Chan) (release : Condition) (out : WaitOutput) : State × Bool :=
  let t := s.test c release
  if t.1 then t.2.advance c
  else (t.2.setEngine c { t.2.engine c with activity := .waiting ⟨release, out⟩ }, false)

/-- R100: the flag action first, then the notice. -/
def State.signalStep (s : State) (c : Chan) (flag : Option (Fin 8 × FlagAction)) (notify : Bool)
    (userCode : Byte) : State × Bool :=
  let s1 :=
    match flag with
    | some (n, a) => s.writeFlags (flagAfter s.flags n a)
    | none => s
  let s2 := if notify then s1.notify (.signal c userCode) else s1
  s2.advance c

/-- The step at the channel's step index is executed, every field from the record as read (R78, R87).
The second component says that the step has ended and the channel goes on to the next. -/
def State.executeStep (s : State) (c : Chan) : State × Bool :=
  match s.localStep c (s.engine c).index with
  | .stop => (s.endRun c .completed, false)
  | .play h n aStart aEnd bStart bEnd scale hold =>
    s.playStep c h.toNat n.toNat aStart aEnd bStart bEnd scale hold
  | .loop last ending => s.loopStep c last.toNat ending
  | .branch q target leave => s.branchStep c q target.toNat leave
  | .call target => s.callStep c target.toNat
  | .ret => s.returnStep c
  | .wait q out => s.waitStep c q out
  | .timer preset tap => (s.loadTimer c preset.toNat tap).advance c
  | .signal flag notify code => s.signalStep c flag notify code

/-- R85: one more step has ended at this event. -/
def State.countStep (s : State) (c : Chan) : State :=
  s.setEngine c { s.engine c with stepsAtEvent := (s.engine c).stepsAtEvent + 1 }

/-- R85: the channel takes steps, at most as many as are left at this event. -/
def State.takeSteps (s : State) (c : Chan) : Nat → State
  | 0 => s
  | left + 1 =>
    let r := s.executeStep c
    if r.2 then (r.1.countStep c).takeSteps c left else r.1

/-- The activity becomes BETWEEN and the steps-at-this-event count 0 (R85). -/
def State.beginEvent (s : State) (c : Chan) : State :=
  s.setEngine c { s.engine c with activity := .between, stepsAtEvent := 0 }

/-- R85: an event at which the channel takes steps from its step index. -/
def State.stepEvent (s : State) (c : Chan) : State :=
  (s.beginEvent c).takeSteps c Config.stepsPerEvent

/-- R85, R86: an event at which the channel makes a sequential advance and then takes steps. The step
that the event completes is not counted among those taken at it (DEDUCED, log entry 16). -/
def State.advanceEvent (s : State) (c : Chan) : State :=
  let r := (s.beginEvent c).advance c
  if r.2 then r.1.takeSteps c Config.stepsPerEvent else r.1

/-! ### Starting, releasing, pausing -/

/-- R84: an ARMED channel starts: RUNNING and taking steps, or PAUSED when a pause reason is set. -/
def State.startChannel (s : State) (c : Chan) : State :=
  let e := s.engine c
  if e.requestPause || e.linePause then
    (s.setEngine c { e with run := .paused, start := none }).beginEvent c
  else (s.setEngine c { e with run := .running, start := none }).stepEvent c

/-- R84: the start test of an ARMED channel; while held it makes none. -/
def State.startTest (s : State) (c : Chan) : State :=
  match (s.engine c).run, (s.engine c).held, (s.engine c).start with
  | .armed, false, some q =>
    let t := s.test c q
    if t.1 then t.2.startChannel c else t.2
  | _, _, _ => s

/-- R98: the release test of a RUNNING channel that is WAITING; while held it makes none. -/
def State.releaseTest (s : State) (c : Chan) : State :=
  match (s.engine c).run, (s.engine c).held, (s.engine c).activity with
  | .running, false, .waiting w =>
    let t := s.test c w.release
    if t.1 then t.2.advanceEvent c else t.2
  | _, _, _ => s

/-- R85, R98, R106, R141: a RUNNING channel that is frozen no longer goes on: a WAITING channel
retests, and a channel whose activity is BETWEEN takes steps. -/
def State.goOn (s : State) (c : Chan) : State :=
  match (s.engine c).run, (s.engine c).held, (s.engine c).activity with
  | .running, false, .waiting _ => s.releaseTest c
  | .running, false, .between => s.stepEvent c
  | _, _, _ => s

/-- R106: the pause reasons have changed: RUNNING becomes PAUSED when either is set, and PAUSED
becomes RUNNING, and goes on, when both are clear. -/
def State.pauseChanged (s : State) (c : Chan) : State :=
  let e := s.engine c
  match e.run, e.requestPause || e.linePause with
  | .running, true => s.setEngine c { e with run := .paused }
  | .paused, false => (s.setEngine c { e with run := .running }).goOn c
  | _, _ => s

/-- R105: the LINE reason is set while the line is high and the routing on, and clear otherwise. -/
def State.followPauseLine (s : State) (c : Chan) : State :=
  let e := s.engine c
  (s.setEngine c { e with linePause := s.pauseLine && e.pauseRouting }).pauseChanged c

/-! ### Passes -/

/-- R90: a PLAY step answered PLAY completes: end marker actions, reference release, play record
removed, and then the pending stop (R103) or a sequential advance. -/
def State.completePlay (s : State) (c : Chan) (p : PlayRecord) : State :=
  let s1 := ((s.markOutput c p.aEnd p.bEnd).release p.serial).beginEvent c
  if (s1.engine c).stopPending then s1.endRun c .stopped else s1.advanceEvent c

/-- The channel goes on with a play record. -/
def State.setActivity (s : State) (c : Chan) (a : Activity) : State :=
  s.setEngine c { s.engine c with activity := a }

/-- R89: at the end of the counted passes and of each hold pass the hold condition, if the step has
one, is tested; a false test leads to another hold pass. -/
def State.holdTest (s : State) (c : Chan) (p : PlayRecord) : State :=
  match p.hold with
  | none => s.completePlay c p
  | some q =>
    let t := s.test c q
    if t.1 then t.2.completePlay c p
    else t.2.setActivity c (.holding { p with holdPass := min 65535 (p.holdPass + 1), position := 0 })

/-- R89, R147: a pass completes: its T7 tap event reaches the channel's timer first. -/
def State.passComplete (s : State) (c : Chan) (p : PlayRecord) (counted : Bool) : State :=
  let s1 := s.tapTimer c 7
  if counted && decide (p.pass < p.passCount) then
    s1.setActivity c (.playing { p with pass := p.pass + 1, position := 0 })
  else s1.holdTest c p

/-- R89: a sample period of a PLAYING (`counted`) or HOLDING channel that is neither PAUSED nor
held. -/
def State.playPeriod (s : State) (c : Chan) (p : PlayRecord) (counted : Bool) : State :=
  let s1 := s.deliverSample c p.scale (s.sampleAt p.firstPage p.position)
  if p.position + 1 < p.sampleLength then
    s1.setActivity c
      (if counted then .playing { p with position := p.position + 1 }
       else .holding { p with position := p.position + 1 })
  else s1.passComplete c p counted

/-- R98, R162: the code a WAITING channel carries in a sample period. -/
def State.waitPeriod (s : State) (c : Chan) (w : WaitRecord) : State :=
  match w.output, (s.engine c).lastCode with
  | .holdLast, some code => s.carryCode c code
  | .holdLast, none => s.carryRest c
  | .rest, _ => s.carryRest c

/-- R106, R162: the code a PAUSED channel carries in a sample period, by its frozen activity. A channel
paused in a PLAY carries what its port carried (DEDUCED, log entry 15). Its marker lines follow their
logical levels at this event too: an action taken just before the pause reaches its line here
(DESIGN CHOICE, log entry 24). One paused in a WAIT carries the WAIT output, also where the pause came
before the WAIT's first sample period (DESIGN CHOICE, log entry 29). -/
def State.frozenPeriod (s : State) (c : Chan) : State :=
  match (s.engine c).activity with
  | .between => s.carryRest c
  | .waiting w => s.waitPeriod c w
  | .playing _ | .holding _ =>
    match (s.output c).portKind with
    | .rest => s.carryRest c
    | .played | .carried => s.carryCode c (s.output c).port

/-- R143, R162, R168: a channel that is not held takes a sample period event: the pending output record
comes into force, and then the channel carries or delivers the period's code; a RUNNING channel goes
on. -/
def State.samplePeriod (s : State) (c : Chan) : State :=
  let s1 := s.setOutput c (s.output c).settle
  let e := s1.engine c
  match e.run with
  | .idle | .armed | .faulted => s1.carryRest c
  | .paused => s1.frozenPeriod c
  | .running =>
    match e.activity with
    | .between => (s1.carryRest c).stepEvent c
    | .waiting w => s1.waitPeriod c w
    | .playing p => s1.playPeriod c p true
    | .holding p => s1.playPeriod c p false

end Sys2Proof.Machine
end

