-- ==== Sys2Proof/Machine/Channels.lean ====
section
/-!
DEFINITION. The requests on channel engines (chapter 5) and the events that reach them: the PAUSE line
(R105), the hold (R141), sample periods (R143) and operand changes (R125).
-/
namespace Sys2Proof.Machine

/-! ### RUN -/

/-- R83, R145: a named channel is prepared: ARMED at the start index with the start condition, its
decimation phase at 0. -/
def State.armChannel (s : State) (start : Nat) (q : Condition) (c : Chan) : State :=
  let e := s.engine c
  (s.setEngine c
    { e with
      run := .armed
      activity := .between
      held := s.clock.hold
      stopPending := false
      start := some q
      index := start
      lastCode := none
      stepsAtEvent := 0
      loops := []
      returns := [] }).setRate c { s.rate c with phase := 0 }

/-- R83, R145: every named channel is prepared, and then each makes its first start test, in ascending
order (DESIGN CHOICE, log entry 7). The named channels have their sample periods from this RUN onward, and
an operand change of an earlier run does nothing (R125): what was handed before and has not been taken is
withdrawn (DEDUCED, log entry 26). -/
def State.runChannels (s : State) (mask : Byte) (start : Nat) (q : Condition) : State :=
  let armed := (maskChannels mask).foldl (fun s c => s.armChannel start q c)
    (s.withdraw ((maskChannels mask).map Instr.samplePeriod ++
      (maskChannels mask).map Instr.operandChange))
  (maskChannels mask).foldl (fun s c => s.startTest c) armed

/-- R82, R83: RUN. A refusal carries the mask of the named channels that failed the test. -/
def takeRun (mask : Byte) (start : Half) (code sense : Byte) (s : State) : Answer :=
  match Condition.ofCode code.toNat (sense == 1), boolOfCode sense with
  | some q, some _ =>
    if mask = 0 then answer .range [0] s
    else
      let failing (p : Chan → Bool) : Byte := maskOf fun c => mask.getLsbD c.val && p c
      let notIdle := failing fun c => decide ((s.engine c).run ≠ .idle)
      let noWindow := failing fun c => decide (s.windowSize c = 0)
      let tooSmall := failing fun c => decide (s.windowSize c ≤ start.toNat)
      if notIdle ≠ 0 then answer .channelActive [notIdle] s
      else if noWindow ≠ 0 then answer .badWindow [noWindow] s
      else if tooSmall ≠ 0 then answer .range [tooSmall] s
      else
        let s1 := s.runChannels mask start.toNat q
        answer .ok [failing fun c => decide ((s1.engine c).run ≠ .armed)] s1
  | _, _ => answer .range [0] s

def execRun (tag mask : Byte) (start : Half) (code sense : Byte) (s : State) : Result :=
  submit (.run tag mask start code sense) (takeRun mask start code sense) s

/-! ### STOP, PAUSE, RESUME -/

/-- R102: STOP NOW on a channel. -/
def State.stopNow (s : State) (c : Chan) : State :=
  if (s.engine c).run.active then s.endRun c .stopped else s

/-- R103: STOP AFTER_PLAY on a channel. -/
def State.stopAfterPlay (s : State) (c : Chan) : State :=
  match (s.engine c).run, (s.engine c).activity with
  | .running, .playing _ | .running, .holding _ | .paused, .playing _ | .paused, .holding _ =>
    s.setEngine c { s.engine c with stopPending := true }
  | _, _ => s.stopNow c

/-- R102, R103: STOP. The reply names the channels stopped and those left with stop-pending set. -/
def takeStop (mask mode : Byte) (s : State) : Answer :=
  match stopModeOfCode mode with
  | none => refuse .range s
  | some afterPlay =>
    if mask = 0 then refuse .range s
    else
      let s1 := (maskChannels mask).foldl
        (fun s c => if afterPlay then s.stopAfterPlay c else s.stopNow c) s
      answer .ok
        [maskOf fun c =>
            mask.getLsbD c.val && (s.engine c).run.active && decide ((s1.engine c).run = .idle),
          maskOf fun c => mask.getLsbD c.val && (s1.engine c).stopPending] s1

def execStop (tag mask mode : Byte) (s : State) : Result :=
  submit (.stop tag mask mode) (takeStop mask mode) s

/-- R104: the mask of all eight channels whose REQUEST reason is set. -/
def State.requestMask (s : State) : Byte := maskOf fun c => (s.engine c).requestPause

/-- R104: the REQUEST reason of a channel that is ARMED, RUNNING or PAUSED is set. -/
def State.pauseChannel (s : State) (c : Chan) : State :=
  if (s.engine c).run.active then
    (s.setEngine c { s.engine c with requestPause := true }).pauseChanged c
  else s

/-- R104: PAUSE. -/
def takePause (mask : Byte) (s : State) : Answer :=
  if mask = 0 then refuse .range s
  else
    let s1 := (maskChannels mask).foldl (fun s c => s.pauseChannel c) s
    answer .ok [s1.requestMask] s1

def execPause (tag mask : Byte) (s : State) : Result := submit (.pause tag mask) (takePause mask) s

/-- R104: the REQUEST reason of a channel is cleared. -/
def State.resumeChannel (s : State) (c : Chan) : State :=
  (s.setEngine c { s.engine c with requestPause := false }).pauseChanged c

/-- R104: RESUME. The named channels go on in ascending order (DESIGN CHOICE, log entry 7). -/
def takeResume (mask : Byte) (s : State) : Answer :=
  if mask = 0 then refuse .range s
  else
    let s1 := (maskChannels mask).foldl (fun s c => s.resumeChannel c) s
    answer .ok [s1.requestMask] s1

def execResume (tag mask : Byte) (s : State) : Result := submit (.resume tag mask) (takeResume mask) s

/-! ### READ CHANNEL, CLEAR FAULT, SET POLICY -/

/-- R111, R208: a loop record on the link. -/
def LoopRecord.bytes (r : LoopRecord) : List Byte :=
  byte2 r.first ++ byte2 r.last ++
    match r.termination with
    | .count k => byte1 0 ++ byte2 k ++ noCondition
    | .condition q => byte1 1 ++ byte2 0 ++ q.bytes

/-- R111: the part of READ CHANNEL's results that a play record gives. -/
def PlayRecord.bytes (p : PlayRecord) : List Byte :=
  byte2 p.handle ++ byte2 p.serial ++ byte2 p.pass ++ byte2 p.passCount ++ byte2 p.holdPass

/-- The play record of a PLAYING or HOLDING channel. -/
def Activity.playRecord? : Activity → Option PlayRecord
  | .playing p | .holding p => some p
  | .between | .waiting _ => none

/-- RUNNING or PAUSED: where the activity is present (R79). -/
def RunState.inProgram : RunState → Bool
  | .running | .paused => true
  | .idle | .armed | .faulted => false

/-- R111, R208: the results of READ CHANNEL. The trigger latch mask is one byte with TRIG0 in bit 0, as a
routing is sent (R206; DEDUCED, log entry 14). -/
def Channel.bytes (x : Channel) : List Byte :=
  let e := x.engine
  byte1 e.run.code ++ byteOfBool e.requestPause ++ byteOfBool e.linePause ++ byteOfBool e.held ++
    byteOfBool e.stopPending ++
    optionalPart 2 (e.start.map Condition.bytes) ++
    optionalPart 2 (if e.run = .idle then none else some (byte2 e.index)) ++
    optionalPart 1 (if e.run.inProgram then some (byte1 e.activity.code) else none) ++
    optionalPart 10
      (if e.run.inProgram then e.activity.playRecord?.map PlayRecord.bytes else none) ++
    countedList (e.loops.map LoopRecord.bytes) ++
    countedList (e.returns.map fun r => byte2 r.index ++ byte1 r.depth) ++
    byteOfBool x.timer.running ++ byte2 x.timer.count ++ byte1 x.timer.tap.val ++
    byteOfBool x.timer.expired ++ byte1 x.latches.trig.toNat ++ byteOfBool x.latches.soft ++
    byte1 e.policy.code ++ byteOfBool e.pauseRouting ++ byteOfBool x.timer.notify ++
    optionalPart 8 (e.fault.map FaultRecord.bytes)

/-- R111. -/
def takeReadChannel (channel : Byte) (s : State) : Answer :=
  match chanOfCode channel with
  | none => refuse .range s
  | some c => answer .ok (s.chan c).bytes s

def execReadChannel (tag channel : Byte) (s : State) : Result :=
  submit (.readChannel tag channel) (takeReadChannel channel) s

/-- R109: CLEAR FAULT. The reply is a copy of the fault record that was emptied. -/
def takeClearFault (channel : Byte) (s : State) : Answer :=
  match chanOfCode channel with
  | none => refuse .range s
  | some c =>
    match (s.engine c).run, (s.engine c).fault with
    | .faulted, some f => answer .ok f.bytes (s.idleChannel c)
    | _, _ => refuse .badState s

def execClearFault (tag channel : Byte) (s : State) : Result :=
  submit (.clearFault tag channel) (takeClearFault channel) s

/-- R110: SET POLICY. -/
def takeSetPolicy (channel policy routing timerNotice : Byte) (s : State) : Answer :=
  match chanOfCode channel, DamagePolicy.ofCode policy, boolOfCode routing, boolOfCode timerNotice with
  | some c, some p, some r, some n =>
    let s1 := s.setEngine c { s.engine c with policy := p, pauseRouting := r }
    let s2 := s1.setTimer c { s1.timer c with notify := n }
    answer .ok (byte1 p.code ++ byteOfBool r ++ byteOfBool n) (s2.followPauseLine c)
  | _, _, _, _ => refuse .range s

def execSetPolicy (tag channel policy routing timerNotice : Byte) (s : State) : Result :=
  submit (.setPolicy tag channel policy routing timerNotice)
    (takeSetPolicy channel policy routing timerNotice) s

/-! ### Events at the engines -/

/-- R105: a change of the PAUSE line is an event at every channel engine; here they take it in
ascending order (DESIGN CHOICE, log entry 7). The line's level is followed in standby (R114) and
recorded while the RESET line is asserted. -/
def execPauseLineChange (high : Bool) (s : State) : Result :=
  .next (({ s with pauseLine := high }.eachChannel fun c s => s.followPauseLine c).transmit)

/-- R81, R141: a channel engine that is ARMED, RUNNING or PAUSED takes the raise and is held while the hold
stands. A raise of an earlier hold, taken after the drop, finds no hold and leaves the channel as it is, and
so it leaves a channel that a RUN armed after that drop, free (R153; DEDUCED, log entry 30). -/
def State.raiseHold (s : State) (c : Chan) : State :=
  if s.clock.hold && (s.engine c).run.active then s.setEngine c { s.engine c with held := true } else s

/-- R143, R168: the start of a sample period of the channel; the phase is 0 at the event. -/
def State.periodEvent (s : State) (c : Chan) : State :=
  let s1 := s.taken (.samplePeriod c)
  (s1.setRate c { s1.rate c with phase := 0 }).samplePeriod c

/-- ARMED, or RUNNING outside a PLAY step: the channel delivers no sample in a sample period (R162). -/
def Engine.carries (e : Engine) : Bool :=
  match e.run, e.activity with
  | .armed, _ => true
  | .running, .waiting _ | .running, .between => true
  | _, _ => false

/-- R125: an operand change makes a test: ARMED, or RUNNING and WAITING, and not held. -/
def Engine.retests (e : Engine) : Bool :=
  !e.held && match e.run, e.activity with
    | .armed, _ | .running, .waiting _ => true
    | _, _ => false

/-- R126, R145: the sample periods that were handed to a channel before the event at which it now goes on
are not of what it goes on with: it takes them first. One that the hold keeps from the channel (R162) is
withdrawn; it would carry what the port carries (DEDUCED, log entry 32). -/
def State.passPeriods (s : State) (c : Chan) : Nat → State
  | 0 => s
  | n + 1 =>
    if (s.engine c).carries then
      let s1 := if s.clock.hold then s.taken (.samplePeriod c) else (s.periodEvent c).transmit
      s1.passPeriods c n
    else s

/-- The sample periods that stand handed to the channel before an event. -/
def State.periodsBefore (s : State) (c : Chan) (e : Instr) : Nat :=
  (s.handedBefore e).count (.samplePeriod c)

/-- R81, R141: a channel engine that is held takes the drop: a start test, a release test or steps, after
the sample periods that were handed to it before (log entry 32). A drop of an earlier hold, taken while a
newer hold stands, leaves the channel held, one that a RUN armed in the newer hold among them: it goes on at
the newer drop (R84, R153; DEDUCED, log entry 30). -/
def State.dropHold (s : State) (c : Chan) : State :=
  let drop : Instr := .holdDrop (.channel c)
  if !s.clock.hold && (s.engine c).held then
    let free := s.setEngine c { s.engine c with held := false }
    let s1 := (free.passPeriods c (s.periodsBefore c drop)).taken drop
    match (s1.engine c).run with
    | .armed => s1.startTest c
    | .running => s1.goOn c
    | .paused | .idle | .faulted => s1
  else s.taken drop

/-- R141: a block takes the raise; it changes no state of TB or of IS. -/
def State.raiseEvent (s : State) (target : HoldTarget) : State :=
  let s1 := s.taken (.holdRaise target)
  match target with
  | .channel c => s1.raiseHold c
  | .timerBank | .scanner => s1

/-- R141: a block takes the drop; it changes no state of TB or of IS. -/
def State.dropEvent (s : State) (target : HoldTarget) : State :=
  match target with
  | .channel c => s.dropHold c
  | .timerBank | .scanner => s.taken (.holdDrop target)

/-- R125: the channel takes an operand change and retests its standing condition, if it has one and is
neither held nor, while WAITING, PAUSED, after the sample periods that were handed to it before (log
entry 32). -/
def State.changeEvent (s : State) (c : Chan) : State :=
  let change : Instr := .operandChange c
  let passed := if (s.engine c).retests then s.passPeriods c (s.periodsBefore c change) else s
  let s1 := passed.taken change
  match (s1.engine c).run with
  | .armed => s1.startTest c
  | .running => s1.releaseTest c
  | .paused | .idle | .faulted => s1

/-! ### The order of the events at one channel -/

/-- An operand change, a raise or a drop of the hold at the channel. -/
def signalsAt (c : Chan) : Instr → Bool
  | .operandChange d | .holdRaise (.channel d) | .holdDrop (.channel d) => decide (d = c)
  | _ => false

/-- The operand changes, raises and drops that stand handed to the channel before an event. -/
def State.signalsBefore (s : State) (c : Chan) (e : Instr) : List Instr :=
  (s.handedBefore e).filter (signalsAt c)

/-- A channel takes an operand change, a raise or a drop. -/
def State.signalEvent (s : State) : Instr → State
  | .operandChange c => s.changeEvent c
  | .holdRaise target => s.raiseEvent target
  | .holdDrop target => s.dropEvent target
  | _ => s

/-- Operand changes, raises and drops are taken one after another, each as an event of its own. -/
def State.takeSignals (s : State) (es : List Instr) : State :=
  es.foldl (fun s e => (s.signalEvent e).transmit) s

/-- A channel takes what was handed to it in the order in which it was handed: the operand changes, raises
and drops that stand before an event come first (R126, R145; DEDUCED, log entry 32). -/
def State.catchUp (s : State) (c : Chan) (e : Instr) : State := s.takeSignals (s.signalsBefore c e)

/-- The same at a target of the hold. -/
def State.catchUpAt (s : State) (target : HoldTarget) (e : Instr) : State :=
  match target with
  | .channel c => s.catchUp c e
  | .timerBank | .scanner => s

/-- R141, R188: the raise of the hold reaches a block. RCU hands a raise on when the hold rises: while the
hold is dropped there is none but one of an earlier hold, which is taken and does nothing (log entries 19
and 30). -/
def execHoldRaise (target : HoldTarget) (s : State) : Result :=
  event (fun s =>
    if s.clock.hold || s.handed.contains (.holdRaise target) then
      (s.catchUpAt target (.holdRaise target)).raiseEvent target
    else s) s

/-- R141, R188: the drop of the hold reaches a block. While the hold is raised there is no drop but one of
an earlier hold, which is taken and lets no channel go on (log entries 19 and 30). -/
def execHoldDrop (target : HoldTarget) (s : State) : Result :=
  event (fun s =>
    if !s.clock.hold || s.handed.contains (.holdDrop target) then
      (s.catchUpAt target (.holdDrop target)).dropEvent target
    else s) s

/-- R143: the start of a sample period of the channel. While the hold stands, or the channel is held and no
drop stands handed before, none reaches the channel (R134, R162). -/
def execSamplePeriod (c : Chan) (s : State) : Result :=
  event (fun s =>
    if s.clock.hold then s
    else
      let s1 := s.catchUp c (.samplePeriod c)
      if s1.admits (.samplePeriod c) then s1.periodEvent c else s1) s

/-- R125: the channel takes an operand change. -/
def execOperandChange (c : Chan) (s : State) : Result :=
  event (fun s => (s.catchUp c (.operandChange c)).changeEvent c) s

end Sys2Proof.Machine
end

