-- ==== Sys2Proof/Machine/Clock.lean ====
section
/-!
DEFINITION. The Reference Clock Unit (chapter 7): the switches between the references and their events
(R135 to R140), the hold as it is handed out (R141), decimation (R144) and READ CLOCK.
-/
namespace Sys2Proof.Machine

/-! ### Beginning and ending a switch -/

/-- R141: the blocks that are handed the raise and the drop. -/
def holdTargets : List HoldTarget :=
  allChannels.map .channel ++ [.timerBank, .scanner]

/-- R141: the hold rises with SWITCHING and is handed to the blocks. -/
def State.raiseHoldSignal (s : State) : State :=
  { s with
    clock := { s.clock with hold := true }
    handed := s.handed ++ holdTargets.map Instr.holdRaise }

/-- R141: the hold drops with STEADY and is handed to the blocks. -/
def State.dropHoldSignal (s : State) : State :=
  { s with
    clock := { s.clock with hold := false }
    handed := s.handed ++ holdTargets.map Instr.holdDrop }

/-- R136: a switch to EXTERNAL begins. -/
def State.switchToExternal (s : State) : State :=
  { s with clock := { s.clock with
      state := .switching .external .request
      lock := .searching
      lockTimeout := some Config.lockTimeoutPeriods } }.raiseHoldSignal

/-- R138: a switch to INTERNAL begins. No timeout runs. -/
def State.switchToInternal (s : State) (cause : SwitchCause) : State :=
  { s with clock := { s.clock with
      state := .switching .internal cause
      lock := .off
      lockTimeout := none } }.raiseHoldSignal

/-- R136, R137, R138: a switch ends: STEADY on a source, the lock timeout stopped (an expiry of it that
has not been taken does not occur), the hold dropped, one REFERENCE notice. -/
def State.endSwitch (s : State) (source : Source) (lock : LockStatus) (cause : ReferenceCause) :
    State :=
  ({ s.taken .lockTimeoutExpiry with clock := { s.clock with
      source := source, state := .steady, lock := lock, lockTimeout := none } }.dropHoldSignal).notify
    (.reference source cause)

/-- R136: in any state but SWITCHING to EXTERNAL the event does nothing. -/
def State.lockAcquired (s : State) : State :=
  match s.clock.state with
  | .switching .external _ => s.endSwitch .external .locked .switched
  | .switching .internal _ | .steady => s

/-- R137: in any state but SWITCHING to EXTERNAL the event does nothing. -/
def State.lockTimeoutExpired (s : State) : State :=
  match s.clock.state with
  | .switching .external _ => s.endSwitch .internal .off .lockFailed
  | .switching .internal _ | .steady => s

/-- R138: the notice's cause follows the switch's. In any state but SWITCHING to INTERNAL the event
does nothing. -/
def State.transferDone (s : State) : State :=
  match s.clock.state with
  | .switching .internal .request => s.endSwitch .internal .off .switched
  | .switching .internal .loss => s.endSwitch .internal .off .lost
  | .switching .external _ | .steady => s

/-- R139: a loss in STEADY EXTERNAL begins a switch to INTERNAL; in any other state it does nothing. -/
def State.referenceLost (s : State) : State :=
  match s.clock.state, s.clock.source with
  | .steady, .external => s.switchToInternal .loss
  | _, _ => s

/-! ### Events of the clock hardware -/

def execLockAcquired (s : State) : Result := event State.lockAcquired s

/-- R137: the lock timeout expires. As a command that the count has not handed on it is the expiry now,
whatever remained of the 250 ms (DESIGN CHOICE, log entry 27). -/
def execLockTimeoutExpiry (s : State) : Result :=
  event (fun s => (s.taken .lockTimeoutExpiry).lockTimeoutExpired) s

def execReferenceLost (s : State) : Result := event State.referenceLost s

def execTransferDone (s : State) : Result := event State.transferDone s

/-! ### Requests -/

/-- The target of a switch in progress, as an optional part (R208). -/
def Clock.targetPart (k : Clock) : List Byte :=
  optionalPart 1
    (match k.state with
     | .switching t _ => some (byte1 t.code)
     | .steady => none)

/-- R135: what every SET REFERENCE reply carries. -/
def Clock.referenceBytes (k : Clock) : List Byte :=
  byte1 k.source.code ++ byte1 k.state.code ++ k.targetPart

/-- R135: SET REFERENCE. -/
def takeSetReference (source : Byte) (s : State) : Answer :=
  match Source.ofCode source with
  | none => answer .range s.clock.referenceBytes s
  | some src =>
    match s.clock.state with
    | .switching _ _ => answer .busy s.clock.referenceBytes s
    | .steady =>
      let s1 :=
        if src = s.clock.source then s
        else
          match src with
          | .external => s.switchToExternal
          | .internal => s.switchToInternal .request
      answer .ok s1.clock.referenceBytes s1

def execSetReference (tag source : Byte) (s : State) : Result :=
  submit (.setReference tag source) (takeSetReference source) s

/-- R155: the time remaining on the lock timeout in whole milliseconds, rounded up, 1 to 250. -/
def timeoutMs (periods : Nat) : Nat := max 1 ((periods + (Config.periodsPerMs - 1)) / Config.periodsPerMs)

/-- R155: READ CLOCK. -/
def takeReadClock (s : State) : Answer :=
  let k := s.clock
  answer .ok
    (byte1 k.source.code ++ byte1 k.state.code ++
      optionalPart 2
        (match k.state with
         | .switching t cause => some (byte1 t.code ++ byte1 cause.code)
         | .steady => none) ++
      byte1 k.lock.code ++ byteOfBool k.hold ++
      optionalPart 1 (k.lockTimeout.map fun n => byte1 (timeoutMs n)) ++
      byteOfBool s.straps.refDefault ++
      s.channels.toList.flatMap fun x => byte4 x.rate.decimation) s

def execReadClock (tag : Byte) (s : State) : Result := submit (.readClock tag) takeReadClock s

/-- R144: SET RATE. RANGE is tested before CHANNEL_ACTIVE (DESIGN CHOICE, log entry 33). A reply carries the channel's decimation in force; for a channel number that names
no channel there is none, and the field is zero (R206, log entry 14). The phase is 0 from now on, and
the next sample period begins after the new number of counted master periods: one that was handed before
and has not been taken is withdrawn (DEDUCED, log entry 26). -/
def takeSetRate (channel : Byte) (decimation : Quad) (s : State) : Answer :=
  match chanOfCode channel with
  | none => answer .range (byte4 0) s
  | some c =>
    if decimation.toNat = 0 ∨ 65536 < decimation.toNat then
      answer .range (byte4 (s.rate c).decimation) s
    else if (s.engine c).run.active then answer .channelActive (byte4 (s.rate c).decimation) s
    else answer .ok (bytesOfQuad decimation) ((s.setRate c ⟨decimation.toNat, 0⟩).withdraw [.samplePeriod c])

def execSetRate (tag channel : Byte) (decimation : Quad) (s : State) : Result :=
  submit (.setRate tag channel decimation) (takeSetRate channel decimation) s

end Sys2Proof.Machine
end

