-- ==== Sys2Proof/Machine/Conditions.lean ====
section
/-!
DEFINITION. The requests on the Condition Unit and the trigger lines (chapter 6).
-/
namespace Sys2Proof.Machine

/-- R124: SET FLAGS, the three masks as one write. -/
def takeSetFlags (set clear toggle : Byte) (s : State) : Answer :=
  if (set &&& clear) ||| (set &&& toggle) ||| (clear &&& toggle) ≠ 0 then refuse .range s
  else
    let flags := ((s.flags ||| set) &&& ~~~clear) ^^^ toggle
    answer .ok [flags, flags ^^^ s.flags] (s.writeFlags flags)

def execSetFlags (tag set clear toggle : Byte) (s : State) : Result :=
  submit (.setFlags tag set clear toggle) (takeSetFlags set clear toggle) s

/-- R121: FIRE TRIGGER. -/
def takeFireTrigger (mask : Byte) (s : State) : Answer :=
  if mask = 0 then refuse .range s
  else answer .ok [maskOf fun c => s.hearsSoftware mask c] (s.softwareTrigger mask)

def execFireTrigger (tag mask : Byte) (s : State) : Result :=
  submit (.fireTrigger tag mask) (takeFireTrigger mask) s

/-- R120: the four edge selections of an optional part, or `none` where a code names no edge. -/
def edgesOf (edges : List Byte) : Option (Vector Bool 4) :=
  match edgeOfCode (edges.getD 0 0), edgeOfCode (edges.getD 1 0), edgeOfCode (edges.getD 2 0),
    edgeOfCode (edges.getD 3 0) with
  | some a, some b, some c, some d => some #v[a, b, c, d]
  | _, _, _, _ => none

/-- The edge selections of the four lines. -/
def setEdges (lines : Vector TriggerLine 4) (edges : Vector Bool 4) : Vector TriggerLine 4 :=
  Vector.ofFn fun n : Fin 4 => { lines[n] with falling := edges[n] }

/-- R120: SET ROUTE. The edges act, and are tested, only when the optional part is present. -/
def takeSetRoute (channel routing present : Byte) (edges : List Byte) (s : State) : Answer :=
  match chanOfCode channel, boolOfCode present with
  | some c, some withEdges =>
    if 16 ≤ routing.toNat then refuse .range s
    else
      let lines :=
        if withEdges then (edgesOf edges).map (setEdges s.lines) else some s.lines
      match lines with
      | none => refuse .range s
      | some lines =>
        let s1 := s.setLatches c { s.latches c with routing := routing.setWidth 4 }
        answer .ok ([routing] ++ lines.toList.flatMap fun l => byteOfBool l.falling)
          { s1 with lines := lines }
  | _, _ => refuse .range s

def execSetRoute (tag channel routing present : Byte) (edges : List Byte) (s : State) : Result :=
  submit (.setRoute tag channel routing present edges) (takeSetRoute channel routing present edges) s

/-- R130: READ CONDITIONS. The trigger latch mask is one byte with TRIG0 in bit 0 (DEDUCED, log
entry 14). -/
def takeReadConditions (s : State) : Answer :=
  answer .ok
    ([s.flags] ++
      (s.lines.toList.flatMap fun l => byteOfBool l.high ++ byteOfBool l.falling) ++
      s.channels.toList.flatMap fun x =>
        byte1 x.latches.routing.toNat ++ byte1 x.latches.trig.toNat ++ byteOfBool x.latches.soft ++
          byteOfBool x.timer.expired) s

def execReadConditions (tag : Byte) (s : State) : Result :=
  submit (.readConditions tag) takeReadConditions s

/-- R118: the level of a line is recorded; a change in the selected direction is an arrival. While the
RESET line is asserted the level is kept for the sampling as the part leaves reset, and is no
arrival. -/
def State.changeTriggerLine (s : State) (n : Fin 4) (high : Bool) : State :=
  let l := s.lines[n]
  let s1 := { s with lines := s.lines.set n { l with high := high } }
  if !s.inReset && l.high != high && high != l.falling then s1.triggerArrival n else s1

def execTriggerLineChange (line : Fin 4) (high : Bool) (s : State) : Result :=
  .next (s.changeTriggerLine line high).transmit

end Sys2Proof.Machine
end

