-- ==== Sys2Proof/Machine/Import.lean ====
section
/-!
DEFINITION. The Library Importer (chapter 9): the read transactions of the library port (R173), starting,
page completions (R177), completion with its commit (R178), cancelling and closing (R180, R181).
-/
namespace Sys2Proof.Machine

/-- R173: the bytes the port sends to the flash at the start of a transaction: the plain read command
and the byte address, most significant byte first. -/
def Transaction.command (t : Transaction) : List Byte :=
  let a : BitVec 24 := BitVec.ofNat 24 t.address
  [0x03, a.extractLsb' 16 8, a.extractLsb' 8 8, a.extractLsb' 0 8]

/-- R173: the bits of a byte on a data line of the port, in the order in which they are sent: the most
significant first. -/
def flashBits (b : Byte) : List Bool := (List.range 8).map fun k => b.getLsbD (7 - k)

/-- R173: the byte that eight bits received on data in make, the most significant first. -/
def flashByte (bits : List Bool) : Byte :=
  bits.foldl (fun b x => (b <<< 1) ||| if x then 1 else 0) 0

/-- R172: the port is in state READING; an absent port never is. -/
def State.portReading (s : State) : Bool := s.straps.libEn && s.importer.reading.isSome

/-- R172, R173: the level of the chip select, high when inactive: low exactly while READING. -/
def State.chipSelectHigh (s : State) : Bool := !s.portReading

/-- R172, R173: the clock line stays low (`false`) while the port is IDLE or absent, and runs, idling low,
while it is READING. -/
def State.flashClockRuns (s : State) : Bool := s.portReading

/-- R172, R173: the bits that the port drives on data out in its state: those of the read command and the
address of the transaction in progress; an absent port, and an IDLE one, sends none. -/
def State.flashDataOut (s : State) : List Bool :=
  match s.straps.libEn, s.importer.reading with
  | true, some t => t.command.flatMap flashBits
  | _, _ => []

/-- R173: the read transaction for page index `k` of the import begins. It is named by the count of
transactions begun. -/
def State.beginRead (s : State) (r : ImportRecord) : State :=
  let bytes :=
    if r.nextPage + 1 = r.pageCount then 2 * (r.sampleLength - 256 * (r.pageCount - 1)) else 512
  { s with importer := { s.importer with
      record := some r
      reading := some ⟨s.importer.begun, r.flashAddress + 512 * r.nextPage, bytes⟩
      begun := s.importer.begun + 1 } }

/-- R172: START IMPORT finds the port absent or closed. -/
def State.libraryClosed (s : State) : Bool := !s.straps.libEn || s.importer.closed

/-- R175, R176: START IMPORT. -/
def takeStartImport (handle : Half) (flashAddress sampleLength : Quad) (commitOnFinish : Byte)
    (s : State) : Answer :=
  let a := flashAddress.toNat
  let n := sampleLength.toNat
  if 1023 < handle.toNat then refuse .range s
  else if s.libraryClosed then refuse .libraryClosed s
  else if s.importer.record.isSome then refuse .busy s
  else if (s.handle handle.toNat).incoming.isSome then refuse .incomingExists s
  else
    match boolOfCode commitOnFinish with
    | none => refuse .range s
    | some flag =>
      if a % 2 = 1 ∨ 16777214 < a ∨ n = 0 ∨ 8388608 < n ∨ 16777216 < a + 2 * n then refuse .range s
      else
        match s.createImage handle.toNat n .imported flag with
        | none => refuse .noSpace s
        | some (i, s1) =>
          answer .ok (byte2 i.serial ++ byte2 i.firstPage ++ byte2 i.pageCount)
            (s1.beginRead ⟨handle.toNat, i.serial, a, n, i.pageCount, 0, flag⟩)

def execStartImport (tag : Byte) (handle : Half) (flashAddress sampleLength : Quad)
    (commitOnFinish : Byte) (s : State) : Result :=
  submit (.startImport tag handle flashAddress sampleLength commitOnFinish)
    (takeStartImport handle flashAddress sampleLength commitOnFinish) s

/-- R178: the last page has been stored: the image becomes READY, the commit is attempted if asked, LI
becomes IDLE and the IMPORT notice is queued. -/
def State.completeImport (s : State) (r : ImportRecord) (i : Image) : State :=
  let ready := s.readied i
  let summary := s.summaryCheck i
  let s1 := s.setHandle r.handle { s.handle r.handle with incoming := some ready }
  let attempt : ImportOutcome × State :=
    if r.commitOnFinish then
      match s1.commitAttempt r.handle ready with
      | .error refusal => (.doneNotCommitted summary refusal, s1)
      | .ok (_, s2) => (.done summary true, s2)
    else (.done summary false, s1)
  let s3 := attempt.2
  ({ s3 with importer := { s3.importer with record := none, reading := none } }).notify
    (.importEnd r.handle r.serial attempt.1)

/-- R177: the read transaction for the next page completes with the data the port received. -/
def State.completePage (s : State) (r : ImportRecord) (data : List Byte) : State :=
  match (s.handle r.handle).incoming with
  | none => s
  | some i =>
    let s1 := s.writeImagePage r.handle i r.nextPage data
    if r.nextPage + 1 < r.pageCount then s1.beginRead { r with nextPage := r.nextPage + 1 }
    else s1.completeImport r i

/-- R177: a completion is taken only when it names the transaction LI began last for the import in
flight; any other changes nothing. -/
def execImportPageComplete (transaction : Nat) (data : List Byte) (s : State) : Result :=
  event (fun s =>
    match s.importer.record, s.importer.reading with
    | some r, some t => if t.id = transaction then s.completePage r data else s
    | _, _ => s) s

/-- Handle, serial and pages completed of an import (R181). -/
def ImportRecord.progressBytes (r : ImportRecord) : List Byte :=
  byte2 r.handle ++ byte2 r.serial ++ byte2 r.nextPage

/-- R181: CANCEL IMPORT. -/
def takeCancelImport (s : State) : Answer :=
  match s.importer.record with
  | none => refuse .badState s
  | some r => answer .ok r.progressBytes (s.cancelImport .request)

def execCancelImport (tag : Byte) (s : State) : Result :=
  submit (.cancelImport tag) takeCancelImport s

/-- R172, R181: CLOSE LIBRARY sets the flag; on an absent port it is taken with no effect. -/
def takeCloseLibrary (s : State) : Answer :=
  if !s.straps.libEn then answer .ok (optionalPart 6 none) s
  else
    let s1 := { s with importer := { s.importer with closed := true } }
    answer .ok (optionalPart 6 (s.importer.record.map ImportRecord.progressBytes))
      (s1.cancelImport .close)

def execCloseLibrary (tag : Byte) (s : State) : Result :=
  submit (.closeLibrary tag) takeCloseLibrary s

/-- R182: the remaining pages, 0 when LI is IDLE. -/
def Importer.remaining (m : Importer) : Nat :=
  match m.record with
  | none => 0
  | some r => r.pageCount - r.nextPage

/-- R182, R208: the rest of the import record on the link, 17 bytes. -/
def ImportRecord.bytes (r : ImportRecord) : List Byte :=
  byte2 r.handle ++ byte2 r.serial ++ byte4 r.flashAddress ++ byte4 r.sampleLength ++
    byte2 r.pageCount ++ byte2 r.nextPage ++ byteOfBool r.commitOnFinish

/-- R182: READ IMPORT. -/
def takeReadImport (s : State) : Answer :=
  let m := s.importer
  answer .ok
    (byteOfBool s.straps.libEn ++ byteOfBool m.closed ++ byteOfBool m.reading.isSome ++
      byteOfBool m.record.isSome ++ byte2 m.remaining ++
      optionalPart 17 (m.record.map ImportRecord.bytes)) s

def execReadImport (tag : Byte) (s : State) : Result := submit (.readImport tag) takeReadImport s

end Sys2Proof.Machine
end

