-- ==== Sys2Proof/Machine/Scanner.lean ====
section
/-!
DEFINITION. The Integrity Scanner (chapter 10): page visits (R190), blocks (R189), the comparison and the
damage mark (R191, R192), SET WALK and READ WALK.
-/
namespace Sys2Proof.Machine

/-! ### Owners of pages -/

/-- The image has a page in its extent. -/
def Image.holdsPage (i : Image) (page : Nat) : Bool :=
  decide (i.firstPage ≤ page) && decide (page < i.firstPage + i.pageCount)

/-- R190: the image is READY or RETIRED, so its pages are checked. -/
def Image.checked (i : Image) : Bool :=
  match i.phase with
  | .loading _ _ => false
  | .ready _ _ | .retired _ _ => true

/-- R190: the live image, if any, that has the page in its extent. -/
def State.ownerOf (s : State) (page : Nat) : Option Image :=
  s.liveImages.find? fun i => i.holdsPage page

/-- The places of a live image record: handle and role (R192). -/
def State.rolesOf (s : State) (ident : Nat) : List (Nat × ImageRole) :=
  (s.handles.flatMap fun e =>
    (e.2.current.toList.filter fun i => decide (i.ident = ident)).map (fun _ => (e.1, .current)) ++
      (e.2.incoming.toList.filter fun i => decide (i.ident = ident)).map fun _ => (e.1, .incoming)) ++
    (s.retired.filter fun e => decide (e.image.ident = ident)).map fun e => (e.origin, .retired)

/-- R192: the mark on an integrity: the first mismatch makes it DAMAGED with a count of 1, each
further one raises the count, held at 32768. -/
def Integrity.marked (page : Nat) : Integrity → Integrity
  | .good => .damaged page 1
  | .damaged first count => .damaged first (min 32768 (count + 1))

/-- R192: the mark on an image's record. -/
def Image.marked (ident page : Nat) (i : Image) : Image :=
  if i.ident = ident then
    match i.phase with
    | .ready g c => { i with phase := .ready (g.marked (page - i.firstPage)) c }
    | .retired g c => { i with phase := .retired (g.marked (page - i.firstPage)) c }
    | .loading _ _ => i
  else i

/-- R192: ST marks the image at a mismatch, with a DAMAGE notice at its first. -/
def State.markDamage (s : State) (i : Image) (page : Nat) : State :=
  let s1 := s.mapImages (Image.marked i.ident page)
  if i.damaged then s1
  else
    match s.rolesOf i.ident with
    | [] => s1
    | (h, role) :: _ => s1.notify (.damage h i.serial role (page - i.firstPage) page)

/-! ### The walk -/

def State.setScanner (s : State) (x : Scanner) : State := { s with scanner := x }

/-- R189: the cursor moves on past a visited page; past the range end a sweep is complete. -/
def Scanner.moveOn (x : Scanner) : Scanner :=
  if x.cursor = x.rangeEnd then
    { x with cursor := x.rangeStart, sweeps := if x.sweeps = 65535 then 0 else x.sweeps + 1 }
  else { x with cursor := x.cursor + 1 }

/-- R189: the block ends: ON waits out the next interval, STOPPING becomes OFF. -/
def Scanner.endBlock (x : Scanner) : Scanner :=
  match x.walk with
  | .stopping => { x with blockRemaining := none, walk := .off }
  | .on | .off => { x with blockRemaining := none, intervalRemaining := some x.interval }

/-- R190: the page at the cursor is to be read: it belongs to a READY or RETIRED image. -/
def State.toRead (s : State) (page : Nat) : Option Image :=
  match s.ownerOf page with
  | some i => if i.checked then some i else none
  | none => none

/-- R190: a read of the page at the cursor begins. -/
def Scanner.beginRead (x : Scanner) (owner : Nat) : Scanner :=
  { x with pageInRead := some ⟨x.cursor, owner, x.begun⟩, begun := x.begun + 1 }

/-- R189, R190: with `left` pages still to be visited by the block, pages are visited from the cursor
until a read begins or the block ends. -/
def State.visitPages (s : State) : Nat → State
  | 0 => s.setScanner s.scanner.endBlock
  | left + 1 =>
    match s.toRead s.scanner.cursor with
    | some i => s.setScanner ({ s.scanner with blockRemaining := some (left + 1) }.beginRead i.ident)
    | none => (s.setScanner s.scanner.moveOn).visitPages left

/-- R188: the interval has expired: a block begins. -/
def State.beginBlock (s : State) : State :=
  (s.setScanner { s.scanner with
    intervalRemaining := none
    blockRemaining := some s.scanner.blockSize }).visitPages s.scanner.blockSize

/-- R188: IS counts its interval: the walk is ON, not suspended, and no block is in progress. -/
def Scanner.counting (x : Scanner) : Bool :=
  decide (x.walk = .on) && !x.suspended && x.blockRemaining.isNone

/-- R188: a T3 event reaches IS. -/
def State.walkTick (s : State) : State :=
  if s.scanner.counting then
    match s.scanner.intervalRemaining with
    | none => s
    | some n =>
      if n ≤ 1 then s.beginBlock
      else s.setScanner { s.scanner with intervalRemaining := some (n - 1) }
  else s

/-- R188: the walk counts and its interval expires at the next T3 event. -/
def Scanner.atLastCount (x : Scanner) : Bool :=
  x.counting && x.intervalRemaining.any fun n => decide (n ≤ 1)

/-- R191: the test and the comparison at a completed read. The image record itself must still own the
page and be READY or RETIRED. -/
def State.compareRead (s : State) (r : PageRead) : State :=
  match s.toRead r.page with
  | none => s
  | some i =>
    if i.ident = r.owner ∧ crc (s.pageBytes r.page) ≠ s.checkWord r.page then s.markDamage i r.page
    else s

/-- R189, R191: the page in read goes, the visit counts, and the block goes on. -/
def State.endVisit (s : State) : State :=
  let s1 := s.setScanner ({ s.scanner with pageInRead := none }.moveOn)
  match s.scanner.blockRemaining with
  | some left => s1.visitPages (left - 1)
  | none => s1

/-- R191: a completion is taken only when it names the read of the page in read; any other comes from
an abandoned read and is dropped. The bytes compared are those stored at the completion (DESIGN
CHOICE, log entry 9). -/
def execScanReadComplete (read : Nat) (s : State) : Result :=
  event (fun s =>
    match s.scanner.pageInRead with
    | some r => if r.id = read then (s.compareRead r).endVisit else s
    | none => s) s

/-! ### Requests -/

/-- R187: what every SET WALK reply carries. -/
def Scanner.walkBytes (x : Scanner) : List Byte :=
  byte1 x.walk.code ++ byte1 x.interval ++ byte1 x.blockSize ++ byte2 x.rangeStart ++
    byte2 x.rangeEnd ++ byte2 x.cursor

/-- R187: SET WALK with enable off. -/
def Scanner.turnOff (x : Scanner) : Scanner :=
  match x.walk, x.blockRemaining with
  | .on, none => { x with walk := .off, intervalRemaining := none }
  | .on, some _ => { x with walk := .stopping }
  | .off, _ | .stopping, _ => x

/-- R187: SET WALK. -/
def takeSetWalk (enable interval blockSize : Byte) (rangeStart rangeEnd : Half) (s : State) : Answer :=
  let x := s.scanner
  match boolOfCode enable with
  | none => answer .range x.walkBytes s
  | some false => answer .ok x.turnOff.walkBytes (s.setScanner x.turnOff)
  | some true =>
    if interval.toNat = 0 ∨ blockSize.toNat = 0 ∨ 128 < blockSize.toNat ∨ 32767 < rangeStart.toNat ∨
        32767 < rangeEnd.toNat ∨ rangeEnd.toNat < rangeStart.toNat then
      answer .range x.walkBytes s
    else if x.walk ≠ .off then answer .busy x.walkBytes s
    else
      let y : Scanner :=
        { x with
          walk := .on
          interval := interval.toNat
          blockSize := blockSize.toNat
          rangeStart := rangeStart.toNat
          rangeEnd := rangeEnd.toNat
          cursor := rangeStart.toNat
          sweeps := 0
          intervalRemaining := some interval.toNat
          blockRemaining := none }
      answer .ok y.walkBytes (s.setScanner y)

def execSetWalk (tag enable interval blockSize : Byte) (rangeStart rangeEnd : Half) (s : State) :
    Result :=
  submit (.setWalk tag enable interval blockSize rangeStart rangeEnd)
    (takeSetWalk enable interval blockSize rangeStart rangeEnd) s

/-- R194: READ WALK. -/
def takeReadWalk (s : State) : Answer :=
  let x := s.scanner
  answer .ok
    (x.walkBytes ++ byte2 x.sweeps ++ optionalPart 1 (x.intervalRemaining.map byte1) ++
      optionalPart 1 (x.blockRemaining.map byte1) ++
      optionalPart 2 (x.pageInRead.map fun r => byte2 r.page)) s

def execReadWalk (tag : Byte) (s : State) : Result := submit (.readWalk tag) takeReadWalk s

end Sys2Proof.Machine
end

