-- ==== Sys2Proof/Machine/Segment.lean ====
section
/-!
DEFINITION. The requests on images and handles (chapters 1 and 2) and the decay of a page (R8).
-/
namespace Sys2Proof.Machine

/-- R20: DEFINE IMAGE. The handle is tested before anything else (section 1.5). -/
def takeDefineImage (handle : Half) (sampleLength : Quad) (commitOnFinish : Byte) (s : State) :
    Answer :=
  if 1023 < handle.toNat then refuse .range s
  else
    match boolOfCode commitOnFinish with
    | none => refuse .range s
    | some flag =>
      if sampleLength.toNat = 0 ∨ 8388608 < sampleLength.toNat then refuse .range s
      else if (s.handle handle.toNat).incoming.isSome then refuse .incomingExists s
      else
        match s.createImage handle.toNat sampleLength.toNat .requests flag with
        | none => refuse .noSpace s
        | some (i, s1) => answer .ok (byte2 i.serial ++ byte2 i.firstPage) s1

def execDefineImage (tag : Byte) (handle : Half) (sampleLength : Quad) (commitOnFinish : Byte)
    (s : State) : Result :=
  submit (.defineImage tag handle sampleLength commitOnFinish)
    (takeDefineImage handle sampleLength commitOnFinish) s

/-- R21, R22: the incoming image takes page data from requests: it is LOADING with fill source
REQUESTS. -/
def Image.takesRequests (i : Image) : Bool :=
  match i.phase, i.source with
  | .loading _ _, .requests => true
  | _, _ => false

/-- R21: WRITE PAGE. -/
def takeWritePage (handle pageIndex : Half) (samples : List Half) (s : State) : Answer :=
  if 1023 < handle.toNat then refuse .range s
  else
    match (s.handle handle.toNat).incoming with
    | none => refuse .noIncoming s
    | some i =>
      if !i.takesRequests then refuse .notLoading s
      else if i.pageCount ≤ pageIndex.toNat then refuse .range s
      else
        answer .ok []
          (s.writeImagePage handle.toNat i pageIndex.toNat (bytesOfHalves samples))

def execWritePage (tag : Byte) (handle pageIndex : Half) (samples : List Half) (s : State) : Result :=
  submit (.writePage tag handle pageIndex samples) (takeWritePage handle pageIndex samples) s

/-- R22: FINISH IMAGE. -/
def takeFinishImage (handle : Half) (s : State) : Answer :=
  if 1023 < handle.toNat then refuse .range s
  else
    match (s.handle handle.toNat).incoming with
    | none => refuse .noIncoming s
    | some i =>
      match i.phase, i.source with
      | .loading commit written, .requests =>
        if lowestMissing 0 written < i.pageCount then
          answer .incomplete (byte2 (lowestMissing 0 written)) s
        else
          let ready := s.readied i
          let s1 := s.setHandle handle.toNat { s.handle handle.toNat with incoming := some ready }
          let results := byte2 i.serial ++ bytesOfHalf (s.summaryCheck i)
          if commit then
            match s1.commitAttempt handle.toNat ready with
            | .error refusal => answer .ok (results ++ optionalPart 1 (some [refusal.code])) s1
            | .ok (_, s2) => answer .ok (results ++ optionalPart 1 (some [Status.code .ok])) s2
          else answer .ok (results ++ optionalPart 1 none) s1
      | _, _ => refuse .notLoading s

def execFinishImage (tag : Byte) (handle : Half) (s : State) : Result :=
  submit (.finishImage tag handle) (takeFinishImage handle) s

/-- A serial with its disposition, as an optional part (R208). -/
def dispositionPart (d : Option (Nat × Disposition)) : List Byte :=
  optionalPart 3 (d.map fun x => byte2 x.1 ++ byte1 x.2.code)

/-- R27: COMMIT. -/
def takeCommit (handle : Half) (s : State) : Answer :=
  if 1023 < handle.toNat then refuse .range s
  else
    match (s.handle handle.toNat).incoming with
    | none => refuse .noIncoming s
    | some i =>
      match i.phase with
      | .loading _ _ => refuse .notReady s
      | .ready _ _ | .retired _ _ =>
        match s.commitAttempt handle.toNat i with
        | .error refusal => refuse refusal s
        | .ok (former, s1) => answer .ok (byte2 i.serial ++ dispositionPart former) s1

def execCommit (tag : Byte) (handle : Half) (s : State) : Result :=
  submit (.commit tag handle) (takeCommit handle) s

/-- R29: DROP INCOMING. -/
def takeDropIncoming (handle : Half) (s : State) : Answer :=
  if 1023 < handle.toNat then refuse .range s
  else
    match (s.handle handle.toNat).incoming with
    | none => refuse .noIncoming s
    | some i =>
      let d := s.dropIncoming handle.toNat .drop
      answer .ok (byte2 i.serial ++ byteOfBool d.1) d.2

def execDropIncoming (tag : Byte) (handle : Half) (s : State) : Result :=
  submit (.dropIncoming tag handle) (takeDropIncoming handle) s

/-- R32 step 1: the incoming image of a handle that is released, if it has one, is discarded; with
the optional part of the reply. -/
def State.releaseIncoming (s : State) (h : Nat) : List Byte × State :=
  match (s.handle h).incoming with
  | none => (optionalPart 3 none, s)
  | some i =>
    let d := s.dropIncoming h .release
    (optionalPart 3 (some (byte2 i.serial ++ byteOfBool d.1)), d.2)

/-- R31, R32: RELEASE HANDLE: every test before anything changes, then the incoming image, then the
current image. -/
def takeReleaseHandle (handle : Half) (s : State) : Answer :=
  if 1023 < handle.toNat then refuse .range s
  else
    match (s.handle handle.toNat).current, (s.handle handle.toNat).incoming with
    | none, none => refuse .noHandle s
    | none, some _ =>
      let r := s.releaseIncoming handle.toNat
      answer .ok (r.1 ++ dispositionPart none) r.2
    | some old, _ =>
      match s.mayLeave old with
      | some refusal => refuse refusal s
      | none =>
        let r := s.releaseIncoming handle.toNat
        let d := (r.2.setHandle handle.toNat HandleRecord.empty).dispose handle.toNat old
        answer .ok (r.1 ++ dispositionPart (some (old.serial, d.1))) d.2

def execReleaseHandle (tag : Byte) (handle : Half) (s : State) : Result :=
  submit (.releaseHandle tag handle) (takeReleaseHandle handle) s

/-- Integrity with first bad page and count of bad pages on the link; zero where GOOD (R206, R208). -/
def Integrity.bytes : Integrity → List Byte
  | .good => byte1 0 ++ byte2 0 ++ byte2 0
  | .damaged first count => byte1 1 ++ byte2 first ++ byte2 count

/-- R42, R208: an image record on the link, 25 bytes; fields that do not apply to its state are
zero. -/
def Image.bytes (i : Image) : List Byte :=
  byte2 i.serial ++ byte2 i.firstPage ++ byte2 i.pageCount ++ byte4 i.sampleLength ++
    byte1 i.source.code ++ byte1 i.phase.code ++ byte1 i.refs ++
    match i.phase with
    | .loading commit written =>
      byteOfBool commit ++ byte2 written.length ++ byte2 (lowestMissing 0 written) ++
        Integrity.bytes .good ++ byte2 0
    | .ready g c | .retired g c => byte1 0 ++ byte2 0 ++ byte2 0 ++ g.bytes ++ bytesOfHalf c

/-- R42: READ HANDLE. -/
def takeReadHandle (handle : Half) (s : State) : Answer :=
  if 1023 < handle.toNat then refuse .range s
  else
    let r := s.handle handle.toNat
    answer .ok
      (optionalPart 25 (r.current.map Image.bytes) ++ optionalPart 25 (r.incoming.map Image.bytes)) s

def execReadHandle (tag : Byte) (handle : Half) (s : State) : Result :=
  submit (.readHandle tag handle) (takeReadHandle handle) s

/-- R43, R208: an entry of the retired list on the link, 16 bytes. -/
def RetiredEntry.bytes (e : RetiredEntry) : List Byte :=
  byte2 e.image.serial ++ byte2 e.origin ++ byte2 e.image.firstPage ++ byte2 e.image.pageCount ++
    byte1 e.image.refs ++
    match e.image.phase with
    | .ready g c | .retired g c => g.bytes ++ bytesOfHalf c
    | .loading _ _ => Integrity.bytes .good ++ byte2 0

/-- R43: READ MAP. -/
def takeReadMap (startIndex : Half) (s : State) : Answer :=
  if s.free.length < startIndex.toNat then refuse .range s
  else
    answer .ok
      (byte2 s.free.length ++ bytesOfHalf startIndex ++
        countedList (((s.free.drop startIndex.toNat).take 64).map fun e =>
          byte2 e.first ++ byte2 e.count) ++
        countedList (s.retired.map RetiredEntry.bytes) ++
        byte2 (freePages s.free) ++ byte2 s.heldPages) s

def execReadMap (tag : Byte) (startIndex : Half) (s : State) : Result :=
  submit (.readMap tag startIndex) (takeReadMap startIndex) s

/-- R8, section 10: a page's stored bytes change without being written, so that they no longer agree
with the page's check word; the check word stays. Bytes that are not 512, or that agree with the
check word, are no decay, and nothing happens (log entry 10). -/
def State.decayPage (s : State) (page : Nat) (data : List Byte) : State :=
  if data.length = 512 ∧ crc data ≠ s.checkWord page then
    { s with memory := Memory.write s.memory (512 * page) data }
  else s

/-- Decay is a physical change of the memory: it happens while the RESET line is asserted too, but not in
standby, in which every page keeps its contents (R1, R197). -/
def execPageDecay (page : BitVec 15) (data : List Byte) (s : State) : Result :=
  .next (if s.link.standby then s else s.decayPage page.toNat data).transmit

end Sys2Proof.Machine
end

