-- ==== Sys2Proof/Machine/Link.lean ====
section
/-!
DEFINITION. The Control Link (chapter 11): its own requests, the receive assembly (R200) and the handing on
of queued requests (R202).
-/
namespace Sys2Proof.Machine

/-! ### The lines of the link (R198) -/

/-- R198: the rate of both lines in bit/s, by the LINK_RATE straps as they were read. -/
def bitRate (code : BitVec 2) : Nat :=
  match code.toNat with
  | 0 => 115200
  | 1 => 921600
  | 2 => 3000000
  | _ => 12000000

/-- R198: the levels of a character on a line, in the order in which they are sent: a start bit, eight
data bits from the least significant, a stop bit. -/
def characterLevels (b : Byte) : List Bool :=
  [false] ++ (List.range 8).map (fun k => b.getLsbD k) ++ [true]

/-- R198, R199: the levels of the frame being sent on the transmit line, its characters back to back;
between frames the line is high. -/
def State.transmitLevels (s : State) : List Bool :=
  match s.frameOnLine with
  | some f => f.wire.flatMap characterLevels
  | none => [true]

/-! ### Requests of CL -/

/-- R211: IDENTIFY. Counts above 255 take 2 bytes and the others 1. -/
def takeIdentify (s : State) : Answer :=
  answer .ok
    ([0x45, 0x8A, 0x01] ++ byte1 s.straps.linkRate.toNat ++ byteOfBool s.straps.libEn ++
      byteOfBool s.straps.refDefault ++
      byte1 8 ++ byte2 32768 ++ byte2 256 ++ byte2 1024 ++ byte1 16 ++ byte1 8 ++ byte2 4096 ++
      byte1 6 ++ byte1 4 ++ byte1 4 ++ byte1 32 ++ byte2 1032) s

def execIdentify (tag : Byte) (s : State) : Result := submit (.identify tag) takeIdentify s

/-- R211: READ DEVICE. -/
def takeReadDevice (s : State) : Answer :=
  answer .ok
    ((s.channels.toList.flatMap fun x => byte1 x.engine.run.code) ++
      byte2 (freePages s.free) ++ byte2 s.importer.remaining ++ byte1 s.scanner.walk.code ++
      byte1 s.clock.source.code ++ byte1 s.clock.state.code ++ byte1 s.link.notices.length ++
      byteOfBool s.link.lost ++ byte1 s.link.requests.length) s

def execReadDevice (tag : Byte) (s : State) : Result := submit (.readDevice tag) takeReadDevice s

/-- CL waits for the reply to be sent before it acts. -/
def State.await (s : State) (a : Awaiting) : State :=
  { s with link := { s.link with awaiting := some a } }

/-- R214: RESET ENGINE. -/
def takeResetEngine (s : State) : Answer := answer .ok [] (s.await .engineReset)

def execResetEngine (tag : Byte) (s : State) : Result := submit (.resetEngine tag) takeResetEngine s

/-- R212: every channel is IDLE or FAULTED, LI is IDLE and RCU is STEADY. -/
def State.mayStandBy (s : State) : Bool :=
  s.channels.toList.all (fun x => !x.engine.run.active) && s.importer.record.isNone &&
    decide (s.clock.state = .steady)

/-- R212: ENTER STANDBY. -/
def takeEnterStandby (s : State) : Answer :=
  if s.mayStandBy then answer .ok [] (s.await .standby) else refuse .busy s

def execEnterStandby (tag : Byte) (s : State) : Result :=
  submit (.enterStandby tag) takeEnterStandby s

/-- R197: IS clears its suspension; a walk that was in a block visits the page at the cursor at once. -/
def State.resumeWalk (s : State) : State :=
  let s1 := s.setScanner { s.scanner with suspended := false }
  match s.scanner.blockRemaining with
  | some left => s1.visitPages left
  | none => s1

/-- R213: WAKE ends standby; outside standby it has no effect. -/
def takeWake (s : State) : Answer :=
  if s.link.standby then
    answer .ok []
      { s with link := { s.link with standby := false }, selfRefresh := false }.resumeWalk
  else answer .ok [] s

def execWake (tag : Byte) (s : State) : Result := submit (.wake tag) takeWake s

/-- R209: SET NOTICES. -/
def takeSetNotices (mask : Byte) (s : State) : Answer :=
  if mask.msb then refuse .range s
  else answer .ok [mask] { s with link := { s.link with mask := mask } }

def execSetNotices (tag mask : Byte) (s : State) : Result :=
  submit (.setNotices tag mask) (takeSetNotices mask) s

/-! ### The receive assembly (R200) -/

def State.setReceive (s : State) (r : Receive) : State :=
  { s with link := { s.link with receive := r } }

/-- R200, R213: a frame that fails the receive checks is answered by a link-made reply, but not in
standby. -/
def State.failFrame (s : State) (st : Status) (tag : Byte) : State :=
  if s.link.standby then s else { s with link := s.link.addLinkReply (linkMade st tag) }

/-- R200: the assembly after the bytes `taken` of the header. -/
def State.takeHeader (s : State) (taken : List Byte) : State :=
  match taken with
  | [kind, tag, low, high] =>
    let n := (halfAt [low, high] 0).toNat
    if Config.maxPayload < n then (s.failFrame .badFrame tag).setReceive .discard
    else if n = 0 then s.setReceive (.check kind tag [] none)
    else s.setReceive (.payload kind tag n [])
  | _ => s.setReceive (.header taken)

/-- R200: both check bytes have arrived. -/
def State.checkFrame (s : State) (f : Frame) (check : Half) : State :=
  let s1 := s.setReceive .hunt
  if crc f.checkedBytes = check then s1.arrive f else s1.failFrame .badCheck f.tag

/-- R200: a character whose stop bit is high. -/
def State.receiveByte (s : State) (b : Byte) : State :=
  match s.link.receive with
  | .hunt => if b = 0xC5 then s.setReceive (.header []) else s
  | .header taken => s.takeHeader (taken ++ [b])
  | .payload kind tag n taken =>
    if (taken ++ [b]).length < n then s.setReceive (.payload kind tag n (taken ++ [b]))
    else s.setReceive (.check kind tag (taken ++ [b]) none)
  | .check kind tag payload none => s.setReceive (.check kind tag payload (some b))
  | .check kind tag payload (some low) => s.checkFrame ⟨kind, tag, payload⟩ (b ++ low)
  | .discard => s

/-- R200: the tag of the frame in progress, if it has arrived. -/
def Receive.tag? : Receive → Option Byte
  | .header (_ :: tag :: _) => some tag
  | .payload _ tag _ _ => some tag
  | .check _ tag _ _ => some tag
  | .header _ | .hunt | .discard => none

/-- R200: a partial frame is discarded, answered with BAD_FRAME if its tag had arrived, and the assembly
enters `next`. -/
def State.discardPartial (s : State) (next : Receive) : State :=
  (match s.link.receive.tag? with
   | some tag => s.failFrame .badFrame tag
   | none => s).setReceive next

/-- R200: a framing error. -/
def State.framingError (s : State) : State :=
  match s.link.receive with
  | .hunt | .discard => s
  | .header _ | .payload _ _ _ _ | .check _ _ _ _ => s.discardPartial .discard

def execReceiveCharacter (b : Byte) (stopHigh : Bool) (s : State) : Result :=
  event (fun s => if stopHigh then s.receiveByte b else s.framingError) s

/-- R200: a gap of more than 1 ms. -/
def State.linkGap (s : State) : State :=
  match s.link.receive with
  | .hunt => s
  | .discard => s.setReceive .hunt
  | .header _ | .payload _ _ _ _ | .check _ _ _ _ => s.discardPartial .hunt

def execLinkGapTimeout (s : State) : Result := event State.linkGap s

/-! ### Handing requests on (R202) -/

/-- What the owning block does with a request; an event is no request. -/
def takeOf : Instr → Option (State → Answer)
  | .identify _ => some takeIdentify
  | .readDevice _ => some takeReadDevice
  | .resetEngine _ => some takeResetEngine
  | .enterStandby _ => some takeEnterStandby
  | .wake _ => some takeWake
  | .setNotices _ m => some (takeSetNotices m)
  | .defineImage _ h n c => some (takeDefineImage h n c)
  | .writePage _ h i xs => some (takeWritePage h i xs)
  | .finishImage _ h => some (takeFinishImage h)
  | .commit _ h => some (takeCommit h)
  | .dropIncoming _ h => some (takeDropIncoming h)
  | .releaseHandle _ h => some (takeReleaseHandle h)
  | .readHandle _ h => some (takeReadHandle h)
  | .readMap _ i => some (takeReadMap i)
  | .setGuard _ n f l m => some (takeSetGuard n f l m)
  | .clearGuard _ n => some (takeClearGuard n)
  | .lockGuards _ l => some (takeLockGuards l)
  | .readGuards _ => some takeReadGuards
  | .startImport _ h a n c => some (takeStartImport h a n c)
  | .cancelImport _ => some takeCancelImport
  | .readImport _ => some takeReadImport
  | .closeLibrary _ => some takeCloseLibrary
  | .setWalk _ e i b f l => some (takeSetWalk e i b f l)
  | .readWalk _ => some takeReadWalk
  | .setPartition _ cs => some (takeSetPartition cs)
  | .writeSteps _ c f n rs => some (takeWriteSteps c f n rs)
  | .readSteps _ c f n => some (takeReadSteps c f n)
  | .run _ m i k n => some (takeRun m i k n)
  | .stop _ m o => some (takeStop m o)
  | .pause _ m => some (takePause m)
  | .resume _ m => some (takeResume m)
  | .readChannel _ c => some (takeReadChannel c)
  | .clearFault _ c => some (takeClearFault c)
  | .setPolicy _ c p r n => some (takeSetPolicy c p r n)
  | .setFlags _ x y z => some (takeSetFlags x y z)
  | .fireTrigger _ m => some (takeFireTrigger m)
  | .setRoute _ c r p es => some (takeSetRoute c r p es)
  | .readConditions _ => some takeReadConditions
  | .setReference _ x => some (takeSetReference x)
  | .readClock _ => some takeReadClock
  | .setRate _ c d => some (takeSetRate c d)
  | .setOutput _ c g o lo hi r e a b => some (takeSetOutput c g o lo hi r e a b)
  | .readOutput _ c => some (takeReadOutput c)
  | .receiveCharacter _ _ | .linkGapTimeout | .requestHandOn | .frameSent | .standbyBegin
  | .engineResetPerformed | .powerOnReset _ _ _ | .resetLine | .guardEnableChange _
  | .pauseLineChange _ | .triggerLineChange _ _ | .lockAcquired | .lockTimeoutExpiry
  | .referenceLost | .transferDone | .holdRaise _ | .holdDrop _ | .samplePeriod _
  | .timeBaseTap _ | .timerExpiry _ | .operandChange _ | .importPageComplete _ _
  | .walkIntervalExpiry | .scanReadComplete _ | .resetLineRelease | .pageDecay _ _ => none

/-- R202: a frame that has left the request queue is tested for its kind and its length, and is handed
to the block that owns it. -/
def State.handOn (s : State) (f : Frame) : State :=
  match decodeRequest f with
  | .unknownKind => s.rejectFrame .unknownKind f.tag
  | .badLength => s.rejectFrame .badFrame f.tag
  | .request i =>
    match takeOf i with
    | some take => s.perform f take
    | none => s

/-- R202: CL hands the front frame on when it may. -/
def State.handOnNext (s : State) : State :=
  match s.link.ready, s.link.requests with
  | true, f :: rest => { s with link := { s.link with requests := rest } }.handOn f
  | _, _ => s

def execRequestHandOn (s : State) : Result := event State.handOnNext s

end Sys2Proof.Machine
end

