-- ==== Sys2Proof/Machine/TimeBase.lean ====
section
/-!
DEFINITION. The time base (chapter 7): the divider chain and its tap events (R146), the counting of the
decimation phases (R143) and of the lock timeout (R137), and the tick that drives them (log entry 13).
-/
namespace Sys2Proof.Machine

/-- R146: counted master periods from one event of a tap to the next: 250, and ten times more for each
slower tap. -/
def tapPeriods (k : Fin 7) : Nat := 250 * 10 ^ k.val

/-- The taps T0 to T6 in ascending order. -/
def dividedTaps : List (Fin 7) := [0, 1, 2, 3, 4, 5, 6]

/-- The tap as the timers name it (R148). -/
def tapOf (k : Fin 7) : Fin 8 := ⟨k.val, by omega⟩

/-- The divided tap of a timer's tap; T7 is none (R147). -/
def dividedTap? (t : Fin 8) : Option (Fin 7) := if h : t.val < 7 then some ⟨t.val, h⟩ else none

/-- R146: the taps whose dividers reach their counts at a position of the chain. The taps are nested: with
a slower tap stands every faster one. -/
def tapsAt (position : Nat) : List (Fin 7) := dividedTaps.filter fun k => position % tapPeriods k == 0

/-- R146: divider `k` reaches its count: the chain moves on to that place, and the other taps that fall at
the same master period, faster and slower, are handed on. -/
def State.divide (s : State) (k : Fin 7) : State :=
  let p := (s.clock.timeBase / tapPeriods k + 1) * tapPeriods k % Config.timeBaseCycle
  { s with
    clock := { s.clock with timeBase := p }
    handed := s.handed ++ ((tapsAt p).erase k).map Instr.timeBaseTap }

/-- R146, R149, R188: a tap event reaches every timer that counts the tap, and T3 reaches IS. -/
def State.tap (s : State) (k : Fin 7) : State :=
  let s1 := s.eachChannel fun c s => s.tapTimer c (tapOf k)
  if k = 3 then s1.walkTick else s1

/-- R134, R141, R146: a tap event. While the hold stands none reaches any block. One that the chain has
handed on leaves the chain as it stands; any other is the divider reaching its count now
(log entry 13). -/
def State.tapEvent (s : State) (k : Fin 7) : State :=
  if s.admits (.timeBaseTap k) then
    if s.handed.contains (.timeBaseTap k) then (s.taken (.timeBaseTap k)).tap k
    else (s.divide k).tap k
  else s

def execTimeBaseTap (k : Fin 7) (s : State) : Result := event (fun s => s.tapEvent k) s

/-- R149, R150: the timer is RUNNING at its last count of a divided tap, the tap whose next event it
expires at. A timer that counts T7 expires at a pass completion and at no tap event (R147). -/
def Timer.lastTap? (t : Timer) : Option (Fin 7) :=
  if t.running && decide (t.count ≤ 1) then dividedTap? t.tap else none

/-- R146, R150: the expiry of a channel's timer is the tap event that brings it to 0. A timer that is at
its last count of T0 to T6 expires by that tap event; any other is left as it stands
(log entry 6). -/
def execTimerExpiry (c : Chan) (s : State) : Result :=
  event (fun s =>
    match (s.timer c).lastTap? with
    | some k => s.tapEvent k
    | none => s) s

/-- R188: the expiry of the walk's interval is the T3 event that brings its count to 0. A walk that counts
and is at its last count expires by that tap event; any other is left as it stands (log entry 6). -/
def execWalkIntervalExpiry (s : State) : Result :=
  event (fun s => if s.scanner.atLastCount then s.tapEvent 3 else s) s

/-! ### The tick -/

/-- R137: the lock timeout is timed from the on-chip oscillator, through a hold; at its end the expiry
is handed on. -/
def State.tickTimeout (s : State) : State :=
  match s.clock.lockTimeout with
  | some (n + 1) =>
    let s1 := { s with clock := { s.clock with lockTimeout := some n } }
    if n = 0 then s1.hand .lockTimeoutExpiry else s1
  | some 0 | none => s

/-- R143: a counted master period at a channel's decimation phase: reaching the decimation, it starts
again at 0 and a sample period event is handed to the channel. -/
def State.tickPhase (s : State) (c : Chan) : State :=
  let r := s.rate c
  if r.phase + 1 < r.decimation then s.setRate c { r with phase := r.phase + 1 }
  else (s.setRate c { r with phase := 0 }).hand (.samplePeriod c)

/-- R146: a counted master period at the divider chain; the taps whose dividers reach their counts are
handed on. -/
def State.tickChain (s : State) : State :=
  let p := (s.clock.timeBase + 1) % Config.timeBaseCycle
  { s with
    clock := { s.clock with timeBase := p }
    handed := s.handed ++ (tapsAt p).map Instr.timeBaseTap }

/-- One period of the master sample clock (DESIGN CHOICE, log entry 13: what a step does on an empty
queue). While the hold is raised no master period is counted (R134); while the RESET line is asserted
nothing moves (R215). -/
def State.tick (s : State) : State :=
  if s.inReset then s
  else
    let s1 := s.tickTimeout
    if s1.clock.hold then s1 else (s1.eachChannel fun c s => s.tickPhase c).tickChain

end Sys2Proof.Machine
end

