-- ==== Sys2Proof/Machine/Resets.lean ====
section
/-!
DEFINITION. The end of a sent frame (R203), the beginning of standby (R212), the engine reset (R214), and
power-on reset and the RESET line (R215) over all blocks.
-/
namespace Sys2Proof.Machine

/-! ### Standby and the engine reset -/

/-- R197: IS is suspended and a read in flight is abandoned; the block and the interval are kept. -/
def Scanner.suspend (x : Scanner) : Scanner := { x with suspended := true, pageInRead := none }

/-- R212: standby begins. -/
def State.beginStandby (s : State) : State :=
  { s with
    link := { s.link with requests := [], standby := true, awaiting := none }
    selfRefresh := true
    scanner := s.scanner.suspend }

/-- R113, R131, R157, R164: a channel at the engine reset: its reference released, its engine IDLE with
policy, routing and LINE reason kept, its timer and its latches reset with their enable and routing
kept, its output at rest. -/
def State.resetChannel (s : State) (c : Chan) : State :=
  let s1 := (s.endReference c).idleChannel c
  s1.setTimer c { Timer.reset with notify := (s1.timer c).notify }

/-- R196: the walk is OFF; configuration, cursor and sweeps are kept. -/
def Scanner.stop (x : Scanner) : Scanner :=
  { x with walk := .off, intervalRemaining := none, blockRemaining := none, pageInRead := none }

/-- R214: the engine reset: every block takes its action, and what notices they handed on and the
queue held are gone. The cause given to the cancelled import is on such a notice (R184). -/
def State.engineReset (s : State) : State :=
  let s1 := (s.eachChannel fun c s => s.resetChannel c).cancelImport .request
  { s1 with
    flags := 0
    scanner := s1.scanner.stop
    link := { s1.link with notices := [], lost := false, awaiting := none } }

/-! ### A frame has been sent (R203) -/

/-- What waits for the reply just sent is done (R212, R214). -/
def State.afterReply (s : State) : State :=
  match s.link.awaiting with
  | none => s
  | some .standby => s.beginStandby
  | some .engineReset => s.engineReset

/-- R203: the frame being sent has been sent in full. -/
def State.completeSending (s : State) : State :=
  match s.link.sending with
  | none => s
  | some .linkReply =>
    { s with link := { s.link with sending := none, linkReplies := s.link.linkReplies.tail } }
  | some .reply =>
    { s with link := { s.link with
        sending := none, slot := none, lastSent := some .reply } }.afterReply
  | some (.notice _) =>
    { s with link := { s.link with sending := none, lastSent := some .notice } }

def execFrameSent (s : State) : Result := event State.completeSending s

/-- The frame being sent is the reply the link waits for. -/
def Link.sendingAwaited (l : Link) (a : Awaiting) : Bool :=
  decide (l.sending = some .reply ∧ l.awaiting = some a)

/-- R212: the event at which the ENTER STANDBY reply has been sent in full. While that reply is not
being sent there is no such event (log entry 17). -/
def execStandbyBegin (s : State) : Result :=
  event (fun s => if s.link.sendingAwaited .standby then s.completeSending else s) s

/-- R214: the event at which the RESET ENGINE reply has been sent in full. While that reply is not
being sent there is no such event (log entry 17). -/
def execEngineResetPerformed (s : State) : Result :=
  event (fun s => if s.link.sendingAwaited .engineReset then s.completeSending else s) s

/-! ### Power-on reset and the RESET line (R215) -/

/-- R131: the trigger lines at a reset: their levels are inputs, their edges RISING. -/
def resetLines (lines : Vector TriggerLine 4) : Vector TriggerLine 4 :=
  lines.map fun l => ⟨l.high, false⟩

/-- R156: as the part leaves reset, RCU begins a switch to EXTERNAL if REF_DEFAULT was latched high. -/
def State.leaveReset (s : State) : State :=
  if s.straps.refDefault then s.switchToExternal else s

/-- The reset state of every block over the inputs as they stand and the model's own counts, which go
on. -/
def State.resetBlocks (s : State) : State :=
  { State.reset with
    pending := s.pending
    inReset := s.inReset
    straps := s.straps
    imagesMade := s.imagesMade
    powerOns := s.powerOns
    importer := { Importer.reset with begun := s.importer.begun }
    scanner := { Scanner.reset with begun := s.scanner.begun }
    guards := { GuardTable.reset with line := s.guards.line }
    lines := resetLines s.lines
    pauseLine := s.pauseLine }

/-- R215: power-on reset, with the straps as it reads them. The contents of memory and of the check
store are unknown from then on (R1, R12). With the RESET line asserted the part stays in reset. -/
def execPowerOnReset (linkRate : BitVec 2) (libEn refDefault : Bool) (s : State) : Result :=
  let s1 :=
    { s.resetBlocks with straps := ⟨linkRate, libEn, refDefault⟩, powerOns := s.powerOns + 1 }
  .next (if s1.inReset then s1 else s1.leaveReset)

/-- R56: the Guard Table at the RESET line: a FROZEN table is kept. -/
def GuardTable.resetLine (g : GuardTable) : GuardTable :=
  match g.level with
  | .frozen => g
  | .unlocked | .line => { GuardTable.reset with line := g.line }

/-- R215: the RESET line is asserted. Sample memory and the check store keep their contents (R1, R12),
and the straps are not read again. -/
def execResetLine (s : State) : Result :=
  .next
    { s.resetBlocks with
      inReset := true
      memory := s.memory
      checkWords := s.checkWords
      guards := s.guards.resetLine }

/-- R215, R200, R156: the RESET line is released. A release of a line that is not asserted is none. -/
def execResetLineRelease (s : State) : Result :=
  .next (if s.inReset then ({ s with inReset := false }.setReceive .hunt).leaveReset else s)

/-! ### What the part does of itself -/

/-- The event the part takes when no command waits: the oldest event that one block has handed to another
and that may be taken (log entry 3), or else the handing on of the front request (R202). -/
def State.ownEvent (s : State) : Option Instr :=
  match s.handed.find? s.admits with
  | some e => some e
  | none => if !s.inReset && s.link.ready && !s.link.requests.isEmpty then some .requestHandOn else none

end Sys2Proof.Machine
end

