-- ==== Sys2Proof/Machine/Dispatch.lean ====
section
/-!
DEFINITION. The effect of each command on everything but the queue: one arm per row of the table, each a
call of that command's meaning.
-/
namespace Sys2Proof.Machine

def exec (i : Instr) (s : State) : Host.Outcome State Fault Refusal :=
  match i with
  | .identify tag => Sys2Proof.Machine.execIdentify tag s
  | .readDevice tag => Sys2Proof.Machine.execReadDevice tag s
  | .resetEngine tag => Sys2Proof.Machine.execResetEngine tag s
  | .enterStandby tag => Sys2Proof.Machine.execEnterStandby tag s
  | .wake tag => Sys2Proof.Machine.execWake tag s
  | .setNotices tag mask => Sys2Proof.Machine.execSetNotices tag mask s
  | .defineImage tag handle sampleLength commitOnFinish => Sys2Proof.Machine.execDefineImage tag handle sampleLength commitOnFinish s
  | .writePage tag handle pageIndex samples => Sys2Proof.Machine.execWritePage tag handle pageIndex samples s
  | .finishImage tag handle => Sys2Proof.Machine.execFinishImage tag handle s
  | .commit tag handle => Sys2Proof.Machine.execCommit tag handle s
  | .dropIncoming tag handle => Sys2Proof.Machine.execDropIncoming tag handle s
  | .releaseHandle tag handle => Sys2Proof.Machine.execReleaseHandle tag handle s
  | .readHandle tag handle => Sys2Proof.Machine.execReadHandle tag handle s
  | .readMap tag startIndex => Sys2Proof.Machine.execReadMap tag startIndex s
  | .setGuard tag slot firstPage lastPage mode => Sys2Proof.Machine.execSetGuard tag slot firstPage lastPage mode s
  | .clearGuard tag slot => Sys2Proof.Machine.execClearGuard tag slot s
  | .lockGuards tag level => Sys2Proof.Machine.execLockGuards tag level s
  | .readGuards tag => Sys2Proof.Machine.execReadGuards tag s
  | .startImport tag handle flashAddress sampleLength commitOnFinish => Sys2Proof.Machine.execStartImport tag handle flashAddress sampleLength commitOnFinish s
  | .cancelImport tag => Sys2Proof.Machine.execCancelImport tag s
  | .readImport tag => Sys2Proof.Machine.execReadImport tag s
  | .closeLibrary tag => Sys2Proof.Machine.execCloseLibrary tag s
  | .setWalk tag enable interval blockSize rangeStart rangeEnd => Sys2Proof.Machine.execSetWalk tag enable interval blockSize rangeStart rangeEnd s
  | .readWalk tag => Sys2Proof.Machine.execReadWalk tag s
  | .setPartition tag unitCounts => Sys2Proof.Machine.execSetPartition tag unitCounts s
  | .writeSteps tag channel first count records => Sys2Proof.Machine.execWriteSteps tag channel first count records s
  | .readSteps tag channel first count => Sys2Proof.Machine.execReadSteps tag channel first count s
  | .run tag mask start code sense => Sys2Proof.Machine.execRun tag mask start code sense s
  | .stop tag mask mode => Sys2Proof.Machine.execStop tag mask mode s
  | .pause tag mask => Sys2Proof.Machine.execPause tag mask s
  | .resume tag mask => Sys2Proof.Machine.execResume tag mask s
  | .readChannel tag channel => Sys2Proof.Machine.execReadChannel tag channel s
  | .clearFault tag channel => Sys2Proof.Machine.execClearFault tag channel s
  | .setPolicy tag channel policy routing timerNotice => Sys2Proof.Machine.execSetPolicy tag channel policy routing timerNotice s
  | .setFlags tag set clear toggle => Sys2Proof.Machine.execSetFlags tag set clear toggle s
  | .fireTrigger tag mask => Sys2Proof.Machine.execFireTrigger tag mask s
  | .setRoute tag channel routing present edges => Sys2Proof.Machine.execSetRoute tag channel routing present edges s
  | .readConditions tag => Sys2Proof.Machine.execReadConditions tag s
  | .setReference tag source => Sys2Proof.Machine.execSetReference tag source s
  | .readClock tag => Sys2Proof.Machine.execReadClock tag s
  | .setRate tag channel decimation => Sys2Proof.Machine.execSetRate tag channel decimation s
  | .setOutput tag channel gain offset clampLow clampHigh rest enable polarityA polarityB => Sys2Proof.Machine.execSetOutput tag channel gain offset clampLow clampHigh rest enable polarityA polarityB s
  | .readOutput tag channel => Sys2Proof.Machine.execReadOutput tag channel s
  | .receiveCharacter byte stopHigh => Sys2Proof.Machine.execReceiveCharacter byte stopHigh s
  | .linkGapTimeout => Sys2Proof.Machine.execLinkGapTimeout s
  | .requestHandOn => Sys2Proof.Machine.execRequestHandOn s
  | .frameSent => Sys2Proof.Machine.execFrameSent s
  | .standbyBegin => Sys2Proof.Machine.execStandbyBegin s
  | .engineResetPerformed => Sys2Proof.Machine.execEngineResetPerformed s
  | .powerOnReset linkRate libEn refDefault => Sys2Proof.Machine.execPowerOnReset linkRate libEn refDefault s
  | .resetLine => Sys2Proof.Machine.execResetLine s
  | .guardEnableChange high => Sys2Proof.Machine.execGuardEnableChange high s
  | .pauseLineChange high => Sys2Proof.Machine.execPauseLineChange high s
  | .triggerLineChange line high => Sys2Proof.Machine.execTriggerLineChange line high s
  | .lockAcquired => Sys2Proof.Machine.execLockAcquired s
  | .lockTimeoutExpiry => Sys2Proof.Machine.execLockTimeoutExpiry s
  | .referenceLost => Sys2Proof.Machine.execReferenceLost s
  | .transferDone => Sys2Proof.Machine.execTransferDone s
  | .holdRaise target => Sys2Proof.Machine.execHoldRaise target s
  | .holdDrop target => Sys2Proof.Machine.execHoldDrop target s
  | .samplePeriod channel => Sys2Proof.Machine.execSamplePeriod channel s
  | .timeBaseTap tap => Sys2Proof.Machine.execTimeBaseTap tap s
  | .timerExpiry channel => Sys2Proof.Machine.execTimerExpiry channel s
  | .operandChange channel => Sys2Proof.Machine.execOperandChange channel s
  | .importPageComplete transaction data => Sys2Proof.Machine.execImportPageComplete transaction data s
  | .walkIntervalExpiry => Sys2Proof.Machine.execWalkIntervalExpiry s
  | .scanReadComplete read => Sys2Proof.Machine.execScanReadComplete read s
  | .resetLineRelease => Sys2Proof.Machine.execResetLineRelease s
  | .pageDecay page data => Sys2Proof.Machine.execPageDecay page data s

end Sys2Proof.Machine
end

