-- ==== Sys2Proof/Machine/Step.lean ====
section
/-!
DEFINITION. One step of the block: the command at the front of the queue, or, on an empty queue, what the
part does of itself.
-/
namespace Sys2Proof.Machine

/-- On an empty queue the part takes its own next event, or else one master period passes (DESIGN
CHOICE, log entry 13). -/
def idle (s : State) : Result :=
  match s.ownEvent with
  | some e => exec e s
  | none => .next s.tick

/-- The command at the front of the queue is taken and carried out on the state with the queue's rest. -/
def step (s : State) : Host.Outcome State Fault Refusal :=
  match s.pending with
  | c :: rest => exec c { s with pending := rest }
  | [] => idle s

/-- The state with the command that a word spells at the front of its queue; the state itself where the
word spells none. -/
def State.withFetchWord (s : State) (nbits w : Nat) : State :=
  match decodeTableWord nbits w with
  | some c => { s with pending := c :: s.pending }
  | none => s

end Sys2Proof.Machine
end

