-- ==== Sys2Proof/Safety.lean ====
section
/-!
DEFINITION. What the statements speak about: the state in which the link hands a request on at once, the
state a reply leaves, and the invariants of the part, block by block.
-/
namespace Sys2Proof.Machine

/-! ### Requests and their replies -/

/-- R201, R202: a request that arrives now is handed on at once: the RESET line is not asserted, the part
is not in standby, no frame waits, the reply slot is empty, and the link waits for nothing. -/
def State.open (s : State) : Bool :=
  !s.inReset && !s.link.standby && s.link.ready && s.link.requests.isEmpty

/-- R199, R202: the reply to a request of this kind and tag is in the slot, and the transmitter has
begun what then waits. -/
def State.withReply (s : State) (kind tag : Byte) (payload : List Byte) : State :=
  ({ s with link := s.link.placeReply (replyTo kind tag payload) }).transmit

/-- The frame is a WAKE with payload length 0 (R213). -/
def Frame.wakes (f : Frame) : Bool := f.kind == 0x05 && f.payload.isEmpty

/-- Two bytes as they arrive, low byte first (R206). -/
def twoBytes (low high : Byte) : Half := high ++ low

/-- The state with the receive assembly in a state of its own. -/
def State.receiving (s : State) (r : Receive) : State :=
  { s with link := { s.link with receive := r } }

/-- The state with a link-made reply of a kind and a tag added to the list, but not in standby
(R203, R213). -/
def State.failed (s : State) (kind tag : Byte) : State :=
  if s.link.standby then s
  else { s with link := { s.link with linkReplies := s.link.linkReplies ++ [⟨kind, tag, []⟩] } }

/-- R102, R109, R164: a channel that has become IDLE by a stop or by CLEAR FAULT: stacks, play record,
start condition, REQUEST reason and last played code gone; policy, routing and LINE reason kept; the
timer STOPPED and every latch clear; the rest level on the port and both markers inactive. -/
def Channel.stopped (x : Channel) : Channel where
  engine :=
    { run := .idle, activity := .between, held := false, requestPause := false
      linePause := x.engine.linePause, stopPending := false, start := none, index := 0
      lastCode := none, stepsAtEvent := 0, loops := [], returns := [], fault := none
      policy := x.engine.policy, pauseRouting := x.engine.pauseRouting }
  timer := { x.timer with running := false, expired := false }
  latches := { routing := x.latches.routing, trig := 0, soft := false }
  rate := x.rate
  output :=
    { x.output with
      port := x.output.inForce.rest, portKind := .rest, levelA := false, levelB := false
      lineA := x.output.inForce.invertA, lineB := x.output.inForce.invertB }

/-- The channel is the only one a mask names. -/
def onlyChan (c : Chan) : Byte := 1#8 <<< c.val

/-! ### A channel that goes on -/

/-- The play record of a channel that is in a PLAY step. -/
def State.playOf (s : State) (c : Chan) : Option PlayRecord := (s.engine c).activity.playRecord?

/-- R84: an ARMED channel of the state starts, and `t` is the state after it: PAUSED at its step index where
a pause reason is set, else RUNNING and taking steps from there. -/
def State.StartsTo (s : State) (c : Chan) (t : State) : Prop :=
  let e := s.engine c
  (e.requestPause = true ∨ e.linePause = true →
    t = s.setEngine c { e with
      run := .paused, start := none, activity := .between, stepsAtEvent := 0 }) ∧
  (e.requestPause = false → e.linePause = false →
    t = (s.setEngine c { e with run := .running, start := none }).stepEvent c)

/-- R85, R98, R106: a RUNNING channel of the state that is frozen no more goes on, and `t` is the state after
it: in a PLAY step nothing changes; between steps it takes steps; in a WAIT the release condition is
tested, and where it is true, which consumes the latch it read, a sequential advance and steps follow. -/
def State.GoesOnTo (s : State) (c : Chan) (t : State) : Prop :=
  let e := s.engine c
  ((s.playOf c).isSome = true → t = s) ∧
  (e.activity = .between → t = s.stepEvent c) ∧
  (∀ q out, e.activity = .waiting ⟨q, out⟩ →
    (s.operand c q.operand = q.negated → t = s) ∧
    (s.operand c q.operand ≠ q.negated →
      t = (if q.negated = true then s else s.consume c q.operand).advanceEvent c))

/-! ### Pages (R13, R14) -/

/-- A page lies in a free extent. -/
def Extent.holds (e : Extent) (page : Nat) : Bool :=
  decide (e.first ≤ page) && decide (page < e.first + e.count)

/-- R13: the extents rise, have pages, lie in the memory, and at least one page lies between each and
the next. -/
def separated : Nat → List Extent → Bool
  | _, [] => true
  | low, e :: es =>
    decide (low ≤ e.first) && decide (0 < e.count) && decide (e.first + e.count ≤ Config.pages) &&
      separated (e.first + e.count + 1) es

/-- R14: how many of the free extents and the live images have a page. -/
def State.owners (s : State) (page : Nat) : Nat :=
  (s.free.filter fun e => e.holds page).length +
    (s.liveImages.filter fun i => i.holdsPage page).length

/-- The extent of an image lies in the memory and has the pages of its sample length (R4). -/
def Image.extentFits (i : Image) : Prop :=
  0 < i.pageCount ∧ i.firstPage + i.pageCount ≤ Config.pages ∧ i.pageCount = pagesFor i.sampleLength

/-- R23: the handles are 0 to 1023, listed once each, and a listed handle is not empty; an incoming image
is LOADING, with page indices of its own in its written-page set, or READY, a current image READY. -/
def State.handlesWf (s : State) : Prop :=
  Sparse.canonical HandleRecord.empty s.handles = true ∧
  (∀ e ∈ s.handles, e.1 < 1024) ∧
  (∀ e ∈ s.handles, ∀ i, e.2.current = some i → ∃ g c, i.phase = .ready g c) ∧
  (∀ e ∈ s.handles, ∀ i, e.2.incoming = some i →
    (∃ c w, i.phase = .loading c w ∧ w.Pairwise (· < ·) ∧ ∀ k ∈ w, k < i.pageCount) ∨
      ∃ g c, i.phase = .ready g c)

/-- R37: at most 16 entries, each RETIRED. -/
def State.retiredWf (s : State) : Prop :=
  s.retired.length ≤ Config.retiredPlaces ∧
  ∀ e ∈ s.retired, ∃ g c, e.image.phase = .retired g c

/-- R174: the image of the import in flight is its handle's incoming image, LOADING, filled by the
import, with the pages before the next page written. -/
def State.importAgrees (s : State) : Prop :=
  (s.importer.reading.isSome = s.importer.record.isSome) ∧
  (∀ r, s.importer.record = some r →
    ∃ i c, (s.handle r.handle).incoming = some i ∧ i.source = .imported ∧
      i.phase = .loading c (List.range r.nextPage) ∧ i.serial = r.serial ∧
      i.sampleLength = r.sampleLength ∧ i.pageCount = r.pageCount ∧ r.nextPage < r.pageCount) ∧
  (∀ e ∈ s.handles, ∀ i, e.2.incoming = some i → i.source = .imported →
    (∃ c w, i.phase = .loading c w) → ∃ r, s.importer.record = some r ∧ r.handle = e.1)

/-- R13, R14 and what they rest on: every page of sample memory belongs to exactly one free extent or
live image, and the memory and the check store keep their canonical forms. -/
structure State.PagesWf (s : State) : Prop where
  free : separated 0 s.free = true
  owned : ∀ page, page < Config.pages → s.owners page = 1
  extents : ∀ i ∈ s.liveImages, i.extentFits
  handles : s.handlesWf
  retired : s.retiredWf
  importer : s.importAgrees
  memory : Memory.wf s.memory = true
  checkWords : Sparse.rising s.checkWords = true ∧ ∀ e ∈ s.checkWords, e.1 < Config.pages

/-! ### The reference clock (R133) -/

/-- R133: what the state, the source, the lock status, the hold and the lock timeout say of each other.
While a switch is in progress the source is the one it leaves. -/
def Clock.agrees (k : Clock) : Prop :=
  k.timeBase < Config.timeBaseCycle ∧
  match k.state with
  | .steady =>
    k.hold = false ∧ k.lockTimeout = none ∧
      k.lock = (match k.source with | .internal => .off | .external => .locked)
  | .switching .external cause =>
    cause = .request ∧ k.source = .internal ∧ k.hold = true ∧ k.lock = .searching ∧
      ∃ n, k.lockTimeout = some n ∧ n ≤ Config.lockTimeoutPeriods
  | .switching .internal _ =>
    k.source = .external ∧ k.hold = true ∧ k.lock = .off ∧ k.lockTimeout = none

/-- The clock agrees with itself, and is in its reset state while the RESET line is asserted (R156,
R215). -/
def State.ClockWf (s : State) : Prop := s.clock.agrees ∧ (s.inReset = true → s.clock = Clock.reset)

/-! ### The link (R201, R202, R203, R209) -/

/-- The bounds of the link's queues, what is being sent is there to be sent, the link waits only while
its reply is in the slot, and the transmitter is not free while something waits. -/
structure Link.Wf (l : Link) : Prop where
  requests : l.requests.length ≤ Config.requestPlaces
  linkReplies : l.linkReplies.length ≤ Config.linkReplyPlaces
  notices : l.notices.length ≤ Config.noticePlaces
  mask : l.mask.msb = false
  sendingLinkReply : l.sending = some .linkReply → l.linkReplies ≠ []
  sendingReply : l.sending = some .reply → l.slot.isSome = true
  awaiting : l.awaiting.isSome = true → l.slot.isSome = true
  busy : l.sending = none → l.linkReplies = [] ∧ l.slot = none ∧ l.notices = []

/-! ### The Step Store (R58, R60, R65) -/

/-- R65, R75: the fields of a stored step that have a least value above 0. -/
def Step.Wf : Step → Prop
  | .play _ passCount _ _ _ _ _ _ => passCount ≠ 0
  | .loop _ (.count n) => n ≠ 0
  | .timer preset _ => preset ≠ 0
  | .stop | .loop _ (.condition _) | .branch _ _ _ | .call _ | .ret | .wait _ _ | .signal _ _ _ => True

/-- R58, R60: eight windows of whole units of 64 steps in the 4096 positions, and a checked step at every
position. -/
structure State.StoreWf (s : State) : Prop where
  units : ∀ c : Chan, s.windowSize c % 64 = 0
  fits : s.partition.toList.sum ≤ Config.stepRecords
  steps : Sparse.canonical Step.stop s.steps = true
  positions : ∀ e ∈ s.steps, e.1 < Config.stepRecords
  valid : ∀ e ∈ s.steps, e.2.Wf

/-! ### The scanner (R186) -/

/-- R186: what the fields say of each other. A block that is not suspended has a page in read. -/
structure State.ScannerWf (s : State) : Prop where
  interval : 1 ≤ s.scanner.interval ∧ s.scanner.interval ≤ 255
  blockSize : 1 ≤ s.scanner.blockSize ∧ s.scanner.blockSize ≤ 128
  range : s.scanner.rangeEnd ≤ 32767
  cursor : s.scanner.rangeStart ≤ s.scanner.cursor ∧ s.scanner.cursor ≤ s.scanner.rangeEnd
  sweeps : s.scanner.sweeps ≤ 65535
  suspended : s.scanner.suspended = s.link.standby
  off : s.scanner.walk = .off → s.scanner.blockRemaining = none
  stopping : s.scanner.walk = .stopping → s.scanner.blockRemaining.isSome = true
  waits : s.scanner.intervalRemaining.isSome =
    (decide (s.scanner.walk = .on) && s.scanner.blockRemaining.isNone)
  intervalLeft : ∀ n, s.scanner.intervalRemaining = some n → n ≤ s.scanner.interval
  blockLeft : ∀ n, s.scanner.blockRemaining = some n → 1 ≤ n ∧ n ≤ s.scanner.blockSize
  reads : s.scanner.pageInRead.isSome = (s.scanner.blockRemaining.isSome && !s.scanner.suspended)
  inRead : ∀ r, s.scanner.pageInRead = some r → r.page = s.scanner.cursor

/-- The cursor lies in the range, and the sweeps are counted as R189 counts them. -/
def Scanner.inRange (x : Scanner) : Prop :=
  x.rangeStart ≤ x.cursor ∧ x.cursor ≤ x.rangeEnd ∧ x.sweeps ≤ 65535

/-- R189: the scanner `j` page visits on: the cursor goes round the range, and each time it passes the range
end a sweep is complete, counted modulo 65536. -/
def Scanner.after (x : Scanner) (j : Nat) : Scanner :=
  { x with
    cursor := x.rangeStart + (x.cursor - x.rangeStart + j) % (x.rangeEnd - x.rangeStart + 1)
    sweeps :=
      (x.sweeps + (x.cursor - x.rangeStart + j) / (x.rangeEnd - x.rangeStart + 1)) % 65536 }

/-! ### The channels (R79, R106, R133, R148, R151) -/

/-- R79, R80: what is present in each run state, the bounds of the stacks, and R106: a channel is PAUSED
exactly when a reason is set in its program. -/
structure Engine.Wf (e : Engine) : Prop where
  loops : e.loops.length ≤ 6
  returns : e.returns.length ≤ 4
  steps : e.stepsAtEvent ≤ Config.stepsPerEvent
  start : e.start.isSome = decide (e.run = .armed)
  fault : e.fault.isSome = decide (e.run = .faulted)
  activity : e.run.inProgram = false → e.activity = .between
  held : e.held = true → e.run.active = true
  request : e.requestPause = true → e.run.active = true
  stopPending : e.stopPending = true → e.activity.playRecord?.isSome = true
  running : e.run = .running → e.requestPause = false ∧ e.linePause = false
  paused : e.run = .paused → e.requestPause = true ∨ e.linePause = true
  idle : e.run = .idle → e.loops = [] ∧ e.returns = [] ∧ e.lastCode = none

/-- R148, R151: a RUNNING timer has a count from 1 to 65535 and belongs to a channel in its program. -/
structure Timer.Wf (t : Timer) (run : RunState) : Prop where
  count : t.count ≤ 65535
  running : t.running = true → 0 < t.count ∧ run.inProgram = true

/-- R133, R143: the decimation is 1 to 65536 and the phase below it. -/
def Rate.Wf (r : Rate) : Prop := 1 ≤ r.decimation ∧ r.decimation ≤ 65536 ∧ r.phase < r.decimation

/-- R159: the clamp pair in force holds the rest level, as SET OUTPUT tests it (R168). -/
def OutputSettings.Wf (g : OutputSettings) : Prop :=
  g.clampLow.toInt ≤ g.rest.toInt ∧ g.rest.toInt ≤ g.clampHigh.toInt

/-- All of a channel. -/
structure Channel.Wf (x : Channel) : Prop where
  engine : x.engine.Wf
  timer : x.timer.Wf x.engine.run
  rate : x.rate.Wf
  inForce : x.output.inForce.Wf
  pending : ∀ g, x.output.pending = some g → g.Wf

/-- Every channel, and R105: the LINE reason of a channel is set exactly while the line is high and its
routing on. -/
def State.ChannelsWf (s : State) : Prop :=
  ∀ c : Chan, (s.chan c).Wf ∧
    (s.chan c).engine.linePause = (s.pauseLine && (s.chan c).engine.pauseRouting)

/-! ### References (R5, R36) -/

/-- R36: the channels whose PLAY step took a reference to the image of a serial. -/
def State.players (s : State) (serial : Nat) : Nat :=
  (allChannels.filter fun c => ((s.playOf c).map PlayRecord.serial) == some serial).length

/-- R5, R36: live images are records of their own (log entry 8) and have serials of their own, 1 to 65535,
and every reference count is the number of channels in a PLAY step of that image. -/
structure State.ReferencesWf (s : State) : Prop where
  records : (s.liveImages.map Image.ident).Nodup ∧ ∀ i ∈ s.liveImages, i.ident < s.imagesMade
  distinct : (s.liveImages.map Image.serial).Nodup
  range : ∀ i ∈ s.liveImages, 1 ≤ i.serial ∧ i.serial ≤ 65535
  counter : 1 ≤ s.serialCounter ∧ s.serialCounter ≤ 65535
  counts : ∀ i ∈ s.liveImages, i.refs = s.players i.serial
  incoming : ∀ e ∈ s.handles, ∀ i, e.2.incoming = some i → i.refs = 0
  retired : ∀ e ∈ s.retired, 0 < e.image.refs
  plays : ∀ c p, s.playOf c = some p →
    ∃ i ∈ s.liveImages, i.serial = p.serial ∧ i.firstPage = p.firstPage ∧
      i.pageCount = p.pageCount ∧ i.sampleLength = p.sampleLength

end Sys2Proof.Machine
end

