-- ==== Sys2Proof/Certificates/Slice0/Obligations.lean ====
section
/-!
DEFINITION. The statements for the provers. `s.open` says that the link hands a request on at once;
`withReply kind tag payload` is the state with that reply in the slot and the transmitter's choice made.
An equality of whole states says that everything it does not name is unchanged.
-/

open Sys2Proof Sys2Proof.Machine

/-! ### The machine -/

/-- The command at the front of the queue is carried out on the state with the queue's rest. -/
def Obligations.StepRunsTheFrontCommand : Prop :=
  ∀ (c : Instr) (rest : List Instr) (s : State), s.pending = c :: rest →
    step s = exec c { s with pending := rest }

/-- An empty queue (the model's choice, log entries 3 and 13): the oldest event handed from one block to
another is taken, but for the sample periods and taps that wait for a hold to drop (log entry 19); or else
a request that CL may hand on; or else one master period passes. R134, R137, R143, R146: a master period
while the hold is dropped moves every decimation phase and the divider chain by one, and hands on exactly
a sample period event for each channel whose phase reaches its decimation and the tap for each divider
that reaches its count, in ascending order (the model's choice, log entry 7); a period while the hold is
raised and no lock timeout runs changes nothing; a lock timeout that runs comes one period lower, and its
expiry is handed on when none is left. -/
def Obligations.StepOnAnEmptyQueue : Prop :=
  ∀ s : State, s.pending = [] →
    let waits (e : Instr) : Prop :=
      (∃ c, e = .samplePeriod c ∧ (s.clock.hold = true ∨ (s.engine c).held = true)) ∨
        ∃ k, e = .timeBaseTap k ∧ s.clock.hold = true
    (∀ before e after, s.handed = before ++ e :: after → (∀ x ∈ before, waits x) → ¬waits e →
      step s = exec e s) ∧
    ((∀ x ∈ s.handed, waits x) →
      (s.inReset = false → s.link.ready = true → s.link.requests ≠ [] →
        step s = exec .requestHandOn s) ∧
      (s.inReset = true ∨ s.link.ready = false ∨ s.link.requests = [] → step s = .next s.tick)) ∧
    (s.inReset = true → s.tick = s) ∧
    (s.inReset = false →
      (s.clock.hold = true → s.clock.lockTimeout = none ∨ s.clock.lockTimeout = some 0 →
        s.tick = s) ∧
      (∀ n, s.clock.hold = true → s.clock.lockTimeout = some (n + 1) →
        s.tick = { s with
          clock := { s.clock with lockTimeout := some n }
          handed := s.handed ++ if n = 0 then [.lockTimeoutExpiry] else [] }) ∧
      (s.clock.hold = false → s.clock.lockTimeout = none →
        (∀ c : Chan, s.tick.chan c = { s.chan c with
          rate := { s.rate c with
            phase := if (s.rate c).phase + 1 < (s.rate c).decimation then (s.rate c).phase + 1
              else 0 } }) ∧
        s.tick = { s with
          channels := s.tick.channels
          clock := { s.clock with timeBase := (s.clock.timeBase + 1) % 250000000 }
          handed := s.handed ++
            (allChannels.filter fun c =>
              decide ((s.rate c).decimation ≤ (s.rate c).phase + 1)).map Instr.samplePeriod ++
            (([0, 1, 2, 3, 4, 5, 6] : List (Fin 7)).filter fun k =>
              decide ((s.clock.timeBase + 1) % (250 * 10 ^ k.val) = 0)).map Instr.timeBaseTap }))

/-- Every command of the table is carried out, in every state, and leaves the queue as it was. -/
def Obligations.EveryCommandIsCarriedOut : Prop :=
  ∀ (c : Instr) (s : State), ∃ t, exec c s = .next t ∧ t.pending = s.pending

/-! ### How requests reach their blocks (R201, R202, R213, R215) -/

/-- A request that is not handed on at once: discarded while the RESET line is asserted and, but for
WAKE, in standby; queued where fewer than 4 frames wait; answered LINK_FULL otherwise. The model's choices:
that a WAKE which finds 4 frames waiting in standby is answered so too (log entry 21), a request command
as its checked frame (log entry 4), one longer than any checked frame too (log entry 31), and that a full
link reply list takes no more (log entry 12). -/
def Obligations.RequestsWaitTheirTurn : Prop :=
  ∀ (i : Instr) (f : Frame) (s : State), encodeRequest i = some f →
    (s.inReset = true → exec i s = .next s) ∧
    (s.inReset = false → s.link.standby = true → f.wakes = false → exec i s = .next s) ∧
    (s.inReset = false → (s.link.standby = false ∨ f.wakes = true) →
      (s.link.ready = false ∨ s.link.requests ≠ []) →
      (s.link.requests.length < 4 →
        exec i s = .next
          ({ s with link := { s.link with requests := s.link.requests ++ [f] } }).transmit) ∧
      (4 ≤ s.link.requests.length → s.link.linkReplies.length < 150 →
        exec i s = .next
          ({ s with link := { s.link with
              linkReplies := s.link.linkReplies ++ [Frame.mk 0xF3 f.tag []] } }).transmit) ∧
      (4 ≤ s.link.requests.length → 150 ≤ s.link.linkReplies.length →
        exec i s = .next s.transmit))

/-- R202: a frame at the front of the queue is tested for its kind and its length, in that order, and
answered where it fails; a well-formed request does what it does when nothing waits before it.
Unless the slot is taken or the link waits, the frame leaves the queue. -/
def Obligations.FrontFramesAreHandedOn : Prop :=
  (∀ (i : Instr) (f : Frame) (s : State), encodeRequest i = some f → i.wellFormed = true →
     s.inReset = false → s.link.standby = false → s.link.ready = true → s.link.requests = [f] →
     exec .requestHandOn s = exec i { s with link := { s.link with requests := [] } }) ∧
  (∀ (f : Frame) (rest : List Frame) (s : State), s.inReset = false → s.link.ready = true →
     s.link.requests = f :: rest →
     (payloadLength f.kind f.payload = none →
       exec .requestHandOn s = .next
         ({ s with link := { s.link with requests := rest, slot := some ⟨0xF4, f.tag, []⟩ } }).transmit) ∧
     (∀ n, payloadLength f.kind f.payload = some n → f.payload.length ≠ n →
       exec .requestHandOn s = .next
         ({ s with link := { s.link with requests := rest, slot := some ⟨0xF1, f.tag, []⟩ } }).transmit))

/-- R202, R206, R207: reading the frame of a well-formed request gives the request back, with every
operand at every value its field admits. -/
def Obligations.RequestFramesRoundTrip : Prop :=
  ∀ (i : Instr) (f : Frame), i.wellFormed = true → encodeRequest i = some f →
    decodeRequest f = .request i

/-- The numbers, masks and codes that a request may carry outside their ranges are refused with RANGE, and
nothing else changes (R24, R42, R50, R51, R74, R77, R82, R102 to R104, R109 to R111, R120, R144, R168,
R169). SET ROUTE is refused so for a routing above 15 and a presence byte above 1 too, whether the edges
are present or not (R120, R206). The decimation in the refusal of a SET RATE that names no channel is 0,
and more than 128 records, which no frame can carry, are refused as any other count is (the model's
choices, log entries 14 and 31). -/
def Obligations.OperandsOutOfRangeAreRefused : Prop :=
  ∀ (tag n x y z count : Byte) (h first last : Half) (g : OutputSettings) (d : Quad)
    (edges : List Byte) (records : List (BitVec 64)) (s : State), s.open = true →
    edges.length = 4 → records.length = count.toNat →
    (1023 < h.toNat →
      exec (.finishImage tag h) s = .next (s.withReply 0x12 tag [0x05]) ∧
      exec (.commit tag h) s = .next (s.withReply 0x13 tag [0x05]) ∧
      exec (.dropIncoming tag h) s = .next (s.withReply 0x14 tag [0x05]) ∧
      exec (.releaseHandle tag h) s = .next (s.withReply 0x15 tag [0x05]) ∧
      exec (.readHandle tag h) s = .next (s.withReply 0x16 tag [0x05])) ∧
    (7 < n.toNat →
      exec (.setGuard tag n first last x) s = .next (s.withReply 0x18 tag [0x05]) ∧
      exec (.clearGuard tag n) s = .next (s.withReply 0x19 tag [0x05]) ∧
      exec (.writeSteps tag n first count records) s = .next (s.withReply 0x31 tag [0x05]) ∧
      exec (.readSteps tag n first count) s = .next (s.withReply 0x32 tag [0x05]) ∧
      exec (.readChannel tag n) s = .next (s.withReply 0x3C tag [0x05]) ∧
      exec (.clearFault tag n) s = .next (s.withReply 0x3D tag [0x05]) ∧
      exec (.setPolicy tag n x y z) s = .next (s.withReply 0x3E tag [0x05]) ∧
      exec (.setRoute tag n x y edges) s = .next (s.withReply 0x42 tag [0x05]) ∧
      exec (.setRate tag n d) s = .next (s.withReply 0x4A tag [0x05, 0, 0, 0, 0]) ∧
      exec (.setOutput tag n g.gain g.offset g.clampLow g.clampHigh g.rest x y z) s =
        .next (s.withReply 0x50 tag [0x05]) ∧
      exec (.readOutput tag n) s = .next (s.withReply 0x51 tag [0x05])) ∧
    (n = 0 ∨ 15 < y.toNat ∨ 1 < z.toNat →
      exec (.run tag n first y z) s = .next (s.withReply 0x38 tag [0x05, 0])) ∧
    (n = 0 ∨ 1 < z.toNat → exec (.stop tag n z) s = .next (s.withReply 0x39 tag [0x05])) ∧
    exec (.pause tag 0) s = .next (s.withReply 0x3A tag [0x05]) ∧
    exec (.resume tag 0) s = .next (s.withReply 0x3B tag [0x05]) ∧
    (2 < x.toNat ∨ 1 < y.toNat ∨ 1 < z.toNat →
      exec (.setPolicy tag n x y z) s = .next (s.withReply 0x3E tag [0x05])) ∧
    ((∃ e ∈ edges, 1 < e.toNat) →
      exec (.setRoute tag n x 1 edges) s = .next (s.withReply 0x42 tag [0x05])) ∧
    (15 < x.toNat ∨ 1 < y.toNat →
      exec (.setRoute tag n x y edges) s = .next (s.withReply 0x42 tag [0x05]))

/-! ### The receive assembly (R199, R200) -/

/-- R199, R200, R201, R213: the characters of a frame that begin in HUNT bring the frame to the request
queue and the assembly back to HUNT. -/
def Obligations.SentFramesArrive : Prop :=
  ∀ (f : Frame) (s : State), f.payload.length ≤ 1032 → s.link.receive = .hunt →
    f.wire.foldl State.receiveByte s = s.arrive f

/-- R200: a character whose stop bit is high, in each state of the assembly; what a framing error and a
gap of more than 1 ms do to a frame in progress, whose tag has arrived or not, and in HUNT and
DISCARD. -/
def Obligations.CharactersFramingErrorsAndGaps : Prop :=
  (∀ (b : Byte) (s : State), s.inReset = false → s.link.linkReplies.length < 150 →
     (s.link.receive = .hunt →
       exec (.receiveCharacter b true) s =
         .next (if b = 0xC5 then s.receiving (.header []) else s).transmit) ∧
     (∀ taken, s.link.receive = .header taken → taken.length < 3 →
       exec (.receiveCharacter b true) s =
         .next (s.receiving (.header (taken ++ [b]))).transmit) ∧
     (∀ kind tag low, s.link.receive = .header [kind, tag, low] →
       exec (.receiveCharacter b true) s =
         .next (if 1032 < (twoBytes low b).toNat then
             (s.failed 0xF1 tag).receiving .discard
           else if twoBytes low b = 0 then s.receiving (.check kind tag [] none)
           else s.receiving (.payload kind tag (twoBytes low b).toNat [])).transmit) ∧
     (∀ kind tag n taken, s.link.receive = .payload kind tag n taken →
       exec (.receiveCharacter b true) s =
         .next (if taken.length + 1 < n then s.receiving (.payload kind tag n (taken ++ [b]))
           else s.receiving (.check kind tag (taken ++ [b]) none)).transmit) ∧
     (∀ kind tag payload, s.link.receive = .check kind tag payload none →
       exec (.receiveCharacter b true) s =
         .next (s.receiving (.check kind tag payload (some b))).transmit) ∧
     (∀ kind tag payload low, s.link.receive = .check kind tag payload (some low) →
       crc (Frame.checkedBytes ⟨kind, tag, payload⟩) ≠ twoBytes low b →
       exec (.receiveCharacter b true) s =
         .next ((s.failed 0xF2 tag).receiving .hunt).transmit) ∧
     (∀ kind tag payload low, s.link.receive = .check kind tag payload (some low) →
       crc (Frame.checkedBytes ⟨kind, tag, payload⟩) = twoBytes low b →
       s.link.standby = false → s.link.requests.length < 4 →
       exec (.receiveCharacter b true) s =
         .next ({ s with link := { s.link with
           receive := .hunt, requests := s.link.requests ++ [Frame.mk kind tag payload] } }).transmit) ∧
     (s.link.receive = .discard → exec (.receiveCharacter b true) s = .next s.transmit)) ∧
  (∀ (b : Byte) (s : State), s.inReset = false → s.link.linkReplies.length < 150 →
     (∀ tag, s.link.receive.tag? = some tag →
       exec (.receiveCharacter b false) s =
         .next ((s.failed 0xF1 tag).receiving .discard).transmit ∧
       exec .linkGapTimeout s =
         .next ((s.failed 0xF1 tag).receiving .hunt).transmit) ∧
     (∀ taken, s.link.receive = .header taken → taken.length < 2 →
       exec (.receiveCharacter b false) s = .next (s.receiving .discard).transmit ∧
       exec .linkGapTimeout s = .next (s.receiving .hunt).transmit) ∧
     (s.link.receive = .hunt →
       exec (.receiveCharacter b false) s = .next s.transmit ∧
       exec .linkGapTimeout s = .next s.transmit) ∧
     (s.link.receive = .discard →
       exec (.receiveCharacter b false) s = .next s.transmit ∧
       exec .linkGapTimeout s = .next (s.receiving .hunt).transmit))

/-! ### The transmitter, notices, standby and the engine reset -/

/-- R209, R211 to R214: SET NOTICES, ENTER STANDBY, RESET ENGINE and WAKE outside standby; IDENTIFY and
READ DEVICE, which change nothing but the reply slot. -/
def Obligations.LinkRequestsAnswer : Prop :=
  (∀ (tag mask : Byte) (s : State), s.open = true →
     exec (.setNotices tag mask) s = .next
       (if mask.msb then s.withReply 0x06 tag [0x05]
        else ({ s with link := { s.link with mask := mask } }).withReply 0x06 tag [0x00, mask]) ∧
     exec (.enterStandby tag) s = .next
       (if (∀ c : Chan, (s.engine c).run = .idle ∨ (s.engine c).run = .faulted) ∧
           s.importer.record = none ∧ s.clock.state = .steady then
         ({ s with link := { s.link with awaiting := some .standby } }).withReply 0x04 tag [0x00]
        else s.withReply 0x04 tag [0x06]) ∧
     exec (.resetEngine tag) s = .next
       (({ s with link := { s.link with awaiting := some .engineReset } }).withReply 0x03 tag [0x00]) ∧
     exec (.wake tag) s = .next (s.withReply 0x05 tag [0x00])) ∧
  (∀ (tag : Byte) (s : State), s.open = true →
     (exec (.identify tag) s = .next (s.withReply 0x01 tag
       [0x00, 0x45, 0x8A, 0x01, s.straps.linkRate.setWidth 8, if s.straps.libEn then 1 else 0,
         if s.straps.refDefault then 1 else 0,
         8, 0x00, 0x80, 0x00, 0x01, 0x00, 0x04, 16, 8, 0x00, 0x10, 6, 4, 4, 32, 0x08, 0x04])) ∧
     (exec (.readDevice tag) s = .next (s.withReply 0x02 tag
       ([0x00] ++ (s.channels.toList.map fun x => BitVec.ofNat 8 x.engine.run.code) ++
         byte2 (freePages s.free) ++ byte2 s.importer.remaining ++ byte1 s.scanner.walk.code ++
         byte1 s.clock.source.code ++ byte1 s.clock.state.code ++ byte1 s.link.notices.length ++
         byteOfBool s.link.lost ++ byte1 s.link.requests.length))))

/-- R209: a notice handed to CL is withheld, lost or queued. R203: the choice of a free transmitter, and the
end of a frame. R199, R206, R210: the frame of a notice, field by field: its kind, its tag, its type, the
lost-before flag and the fields of its type, in the length that R210 gives. -/
def Obligations.NoticesAndTheTransmitter : Prop :=
  (∀ (n : Notice) (s : State),
     (s.link.mask.getLsbD (n.type - 1) = false → s.notify n = s) ∧
     (s.link.mask.getLsbD (n.type - 1) = true → 32 ≤ s.link.notices.length →
       s.notify n = { s with link := { s.link with lost := true } }) ∧
     (s.link.mask.getLsbD (n.type - 1) = true → s.link.notices.length < 32 →
       s.notify n = { s with link := { s.link with
         notices := s.link.notices ++ [⟨n, s.link.lost⟩], lost := false } })) ∧
  ((∀ l : Link,
      (∀ x, l.sending = some x → l.transmit = l) ∧
      (l.sending = none → l.linkReplies ≠ [] → l.transmit = { l with sending := some .linkReply }) ∧
      (∀ f n ns, l.sending = none → l.linkReplies = [] → l.slot = some f → l.notices = n :: ns →
        l.transmit =
          if l.lastSent = some .reply then { l with sending := some (.notice n), notices := ns }
          else { l with sending := some .reply }) ∧
      (∀ f, l.sending = none → l.linkReplies = [] → l.slot = some f → l.notices = [] →
        l.transmit = { l with sending := some .reply }) ∧
      (∀ n ns, l.sending = none → l.linkReplies = [] → l.slot = none → l.notices = n :: ns →
        l.transmit = { l with sending := some (.notice n), notices := ns }) ∧
      (l.sending = none → l.linkReplies = [] → l.slot = none → l.notices = [] → l.transmit = l)) ∧
   (∀ s : State, s.inReset = false →
      (s.link.sending = some .linkReply →
        exec .frameSent s = .next ({ s with link := { s.link with
          sending := none, linkReplies := s.link.linkReplies.tail } }).transmit) ∧
      (s.link.sending = some .reply → s.link.awaiting = none →
        exec .frameSent s = .next ({ s with link := { s.link with
          sending := none, slot := none, lastSent := some .reply } }).transmit) ∧
      (∀ n, s.link.sending = some (.notice n) →
        exec .frameSent s = .next ({ s with link := { s.link with
          sending := none, lastSent := some .notice } }).transmit))) ∧
  (∀ (n : Notice) (lost : Bool),
     let bit (b : Bool) : Byte := if b then 1 else 0
     let fields : Byte × List Byte :=
       match n with
       | .runEnd c cause i fault =>
         (1, [BitVec.ofNat 8 c.val, match cause with | .completed => 0 | .stopped => 1 | .fault => 2] ++
           byte2 i ++
           match fault with
           | some f => [1, BitVec.ofNat 8 f.cause.code] ++ byte2 f.index ++
             (match f.handle with | some h => 1 :: byte2 h | none => [0, 0, 0]) ++
             [BitVec.ofNat 8 f.loopDepth, BitVec.ofNat 8 f.returnDepth]
           | none => [0, 0, 0, 0, 0, 0, 0, 0, 0])
       | .signal c code => (2, [BitVec.ofNat 8 c.val, code])
       | .timer c => (3, [BitVec.ofNat 8 c.val])
       | .importEnd h serial outcome =>
         (4, byte2 h ++ byte2 serial ++
           match outcome with
           | .done w committed => 0 :: (bytesOfHalf w ++ [bit committed, 0, 0, 0, 0])
           | .doneNotCommitted w refusal => 1 :: (bytesOfHalf w ++ [0, refusal.code, 0, 0, 0])
           | .cancelled pages cause => [2, 0, 0, 0, 0] ++ byte2 pages ++
             [match cause with | .request => 0 | .drop => 1 | .release => 2 | .close => 3])
       | .damage h serial role k page =>
         (5, byte2 h ++ byte2 serial ++
           [match role with | .incoming => 0 | .current => 1 | .retired => 2] ++ byte2 k ++ byte2 page)
       | .freed serial h pages => (6, byte2 serial ++ byte2 h ++ byte2 pages)
       | .reference source cause =>
         (7, [match source with | .internal => 0 | .external => 1,
           match cause with | .switched => 0 | .lockFailed => 1 | .lost => 2])
     (QueuedNotice.mk n lost).frame = Frame.mk 0x7E 0 (fields.1 :: bit lost :: fields.2) ∧
     n.type = fields.1.toNat ∧
     (QueuedNotice.mk n lost).frame.payload.length =
       match n with
       | .runEnd _ _ _ _ => 15
       | .signal _ _ => 4
       | .timer _ => 3
       | .importEnd _ _ _ => 14
       | .damage _ _ _ _ _ => 11
       | .freed _ _ _ => 8
       | .reference _ _ => 4)

/-- R197, R212, R213: standby begins at the event at which the ENTER STANDBY reply has been sent in full,
and WAKE ends it. A walk between blocks, or OFF, goes on as it stood; a walk in a block visits the pages
from the cursor at once, round its range, up to the first that is to be read, whose read begins, or to
the end of the block (R189, R190). -/
def Obligations.StandbyBeginsAndEnds : Prop :=
  (∀ s : State, s.inReset = false → s.link.sending = some .reply → s.link.awaiting = some .standby →
     exec .standbyBegin s = .next ({ s with
       link := { s.link with
         sending := none, slot := none, lastSent := some .reply, requests := [], standby := true
         awaiting := none }
       selfRefresh := true
       scanner := { s.scanner with suspended := true, pageInRead := none } }).transmit ∧
     exec .frameSent s = exec .standbyBegin s) ∧
  (∀ (tag : Byte) (s : State), s.inReset = false → s.link.standby = true → s.link.ready = true →
     s.link.requests = [] →
     let woken (x : Scanner) : Result := .next (({ s with
       link := { s.link with standby := false }
       selfRefresh := false
       scanner := { x with suspended := false } }).withReply 0x05 tag [0x00])
     (s.scanner.blockRemaining = none → exec (.wake tag) s = woken s.scanner) ∧
     (∀ left, s.scanner.blockRemaining = some left → s.scanner.inRange →
       (∀ (m : Nat) (i : Image), m < left →
         (∀ j, j < m → s.toRead (s.scanner.after j).cursor = none) →
         s.toRead (s.scanner.after m).cursor = some i →
         exec (.wake tag) s = woken { s.scanner.after m with
           blockRemaining := some (left - m)
           pageInRead := some ⟨(s.scanner.after m).cursor, i.ident, s.scanner.begun⟩
           begun := s.scanner.begun + 1 }) ∧
       ((∀ j, j < left → s.toRead (s.scanner.after j).cursor = none) →
         (s.scanner.walk = .on → exec (.wake tag) s = woken { s.scanner.after left with
           blockRemaining := none, intervalRemaining := some s.scanner.interval }) ∧
         (s.scanner.walk = .stopping → exec (.wake tag) s = woken { s.scanner.after left with
           blockRemaining := none, walk := .off }))))

/-- R214 and the rules of the blocks: the engine reset at the event at which the RESET ENGINE reply has
been sent in full: first with no import in flight and no channel holding a reference; then, in a state
that meets the invariants of the part, with references and an import as they stand: every reference is
released, every RETIRED image is freed (R35), and the import ends with its image discarded (R45, R184). -/
def Obligations.EngineResetIsPerformed : Prop :=
  ∀ s : State, s.inReset = false → s.link.sending = some .reply →
    s.link.awaiting = some .engineReset →
    let channels (t : State) : Prop := ∀ c : Chan, t.chan c =
      { (s.chan c).stopped with
        timer := { running := false, count := 0, tap := 0, expired := false
                   notify := (s.timer c).notify } }
    let rest (t : State) : State := { s with
      channels := t.channels
      flags := 0
      scanner := { s.scanner with
        walk := .off, intervalRemaining := none, blockRemaining := none, pageInRead := none }
      link := { s.link with
        sending := none, slot := none, lastSent := some .reply
        notices := [], lost := false, awaiting := none } }
    (s.importer.record = none → (∀ c : Chan, s.playOf c = none) →
      ∃ t : State,
        exec .engineResetPerformed s = .next t.transmit ∧ exec .frameSent s = .next t.transmit ∧
        channels t ∧ t = rest t) ∧
    (s.PagesWf → s.ChannelsWf → s.ReferencesWf →
      ∃ t : State,
        exec .engineResetPerformed s = .next t.transmit ∧ exec .frameSent s = .next t.transmit ∧
        channels t ∧ t.PagesWf ∧
        (∀ h, t.handle h =
          ⟨(s.handle h).current.map fun i => { i with refs := 0 },
            if s.importer.record.map ImportRecord.handle = some h then none
            else (s.handle h).incoming⟩) ∧
        t = { rest t with
          handles := t.handles, retired := [], free := t.free
          importer := { s.importer with record := none, reading := none } })

/-! ### Resets (R215 and the blocks' own rules) -/

/-- R215, R19, R45, R56, R59, R64, R113, R131, R156, R157, R159, R171, R184, R196: what power-on reset
leaves, with the RESET line released and REF_DEFAULT low or high. Memory and check words are unknown (free
values, log entry 1); the 250 ms of the lock timeout are counted in periods of 4 ns, and the raise of the
hold is handed to the blocks in their order (the model's choices, log entries 3 and 5). -/
def Obligations.PowerOnResetState : Prop :=
  ∀ (rate : BitVec 2) (en high : Bool) (s : State), s.inReset = false →
    ∃ t : State, exec (.powerOnReset rate en high) s = .next t ∧
      t.straps = ⟨rate, en, high⟩ ∧ t.inReset = false ∧
      t.handed = (if high then
        (allChannels.map HoldTarget.channel ++ [HoldTarget.timerBank, .scanner]).map Instr.holdRaise else []) ∧
      t.link = ⟨.hunt, [], none, [], none, none, [], 0x7F, false, false, none⟩ ∧
      t.handles = [] ∧ t.retired = [] ∧ t.serialCounter = 1 ∧ t.free = [⟨0, 32768⟩] ∧
      (∀ a, t.storedByte a = Config.powerOnByte (s.powerOns + 1) a) ∧
      (∀ p, t.checkWord p = Config.powerOnCheckWord (s.powerOns + 1) p) ∧ t.selfRefresh = false ∧
      t.guards = ⟨Vector.replicate 8 none, .unlocked, s.guards.line⟩ ∧
      t.importer.record = none ∧ t.importer.reading = none ∧ t.importer.closed = false ∧
      t.scanner = { s.scanner with
        walk := .off, suspended := false, interval := 100, blockSize := 8, rangeStart := 0
        rangeEnd := 32767, cursor := 0, intervalRemaining := none, blockRemaining := none
        pageInRead := none, sweeps := 0 } ∧
      (∀ k, t.stepAt k = .stop) ∧ (∀ c : Chan, t.windowSize c = 512) ∧
      (∀ c : Chan,
        t.engine c = ⟨.idle, .between, false, false, false, false, none, 0, none, 0, [], [], none,
          .fault, false⟩ ∧
        t.timer c = ⟨false, 0, 0, false, false⟩ ∧ t.latches c = ⟨0, 0, false⟩ ∧ t.rate c = ⟨1, 0⟩ ∧
        t.output c = ⟨⟨0x4000, 0, 0x8000, 0x7FFF, 0, false, false, false⟩, none, 0, .rest, false, false,
          false, false, false⟩) ∧
      t.flags = 0 ∧ (∀ n : Fin 4, t.lines[n] = ⟨s.lines[n].high, false⟩) ∧
      t.pauseLine = s.pauseLine ∧
      t.clock = (if high then
          ⟨.internal, .switching .external .request, .searching, true, some 62500000, 0⟩
        else ⟨.internal, .steady, .off, false, none, 0⟩)

/-- R215, R1, R12, R45, R56, R196: the RESET line puts every block in its reset state but for what it
keeps: the stored samples, the check words, the straps as read, the levels of the input lines, and a
FROZEN Guard Table. R200, R156: its release, with REF_DEFAULT latched low and high, and of a line that is
not asserted. The unit of the lock timeout's count, the order of the raise and the release of a line that
is not asserted are the model's choices (log entries 5, 3 and 18). -/
def Obligations.ResetLineAssertedAndReleased : Prop :=
  (∀ s : State, ∃ t : State, exec .resetLine s = .next t ∧ t.inReset = true ∧
     t.straps = s.straps ∧ t.memory = s.memory ∧ t.checkWords = s.checkWords ∧
     (∀ a, t.storedByte a = s.storedByte a) ∧ (∀ p, t.checkWord p = s.checkWord p) ∧
     (s.guards.level = .frozen → t.guards = s.guards) ∧
     (s.guards.level ≠ .frozen → t.guards = ⟨Vector.replicate 8 none, .unlocked, s.guards.line⟩) ∧
     t.link = Link.reset ∧ t.handles = [] ∧ t.retired = [] ∧ t.serialCounter = 1 ∧
     t.free = [⟨0, 32768⟩] ∧ t.importer.record = none ∧ t.importer.reading = none ∧
     t.importer.closed = false ∧ t.steps = [] ∧ (∀ c : Chan, t.windowSize c = 512) ∧
     (∀ c : Chan, t.chan c = Channel.reset) ∧ t.flags = 0 ∧
     (∀ n : Fin 4, t.lines[n] = ⟨s.lines[n].high, false⟩) ∧ t.clock = Clock.reset ∧ t.handed = [] ∧
     t.scanner = { s.scanner with
       walk := .off, suspended := false, interval := 100, blockSize := 8, rangeStart := 0
       rangeEnd := 32767, cursor := 0, intervalRemaining := none, blockRemaining := none
       pageInRead := none, sweeps := 0 } ∧
     t.selfRefresh = false ∧ t.pauseLine = s.pauseLine) ∧
  (∀ s : State,
     (s.inReset = true → s.straps.refDefault = false →
       exec .resetLineRelease s = .next
         { s with inReset := false, link := { s.link with receive := .hunt } }) ∧
     (s.inReset = true → s.straps.refDefault = true →
       exec .resetLineRelease s = .next
         { s with
           inReset := false
           link := { s.link with receive := .hunt }
           clock := { s.clock with
             state := .switching .external .request, lock := .searching, hold := true
             lockTimeout := some 62500000 }
           handed := s.handed ++ holdTargets.map Instr.holdRaise }) ∧
     (s.inReset = false → exec .resetLineRelease s = .next s))

/-- R64: the partition after each kind of reset and through standby. -/
def Obligations.PartitionThroughResets : Prop :=
  ∀ s : State,
    (∀ rate en def_ t, exec (.powerOnReset rate en def_) s = .next t →
      ∀ c : Chan, t.windowSize c = 512 ∧ t.windowStart c = 512 * c.val) ∧
    (∀ t, exec .resetLine s = .next t →
      ∀ c : Chan, t.windowSize c = 512 ∧ t.windowStart c = 512 * c.val) ∧
    (∀ t, exec .engineResetPerformed s = .next t → t.partition = s.partition) ∧
    (∀ t, exec .standbyBegin s = .next t → t.partition = s.partition) ∧
    (∀ tag t, exec (.wake tag) s = .next t → t.partition = s.partition)

/-- R12: the check words after each kind of reset and through standby; unknown is the free value of the
power-on reset's number, the form that the model gives it (log entry 1). -/
def Obligations.CheckWordsThroughResets : Prop :=
  ∀ s : State,
    (∀ rate en def_ t, exec (.powerOnReset rate en def_) s = .next t →
      t.powerOns = s.powerOns + 1 ∧
        ∀ p, t.checkWord p = Config.powerOnCheckWord (s.powerOns + 1) p) ∧
    (∀ t, exec .resetLine s = .next t →
      (∀ p, t.checkWord p = s.checkWord p) ∧ t.liveImages = []) ∧
    (∀ t, exec .engineResetPerformed s = .next t → ∀ p, t.checkWord p = s.checkWord p) ∧
    (∀ t, exec .standbyBegin s = .next t → ∀ p, t.checkWord p = s.checkWord p) ∧
    (∀ tag t, exec (.wake tag) s = .next t → ∀ p, t.checkWord p = s.checkWord p)

/-- R157: the timers after each kind of reset; the notices of a TIMER that the notice queue holds after
the engine reset are none. -/
def Obligations.TimersThroughResets : Prop :=
  ∀ s : State,
    (∀ rate en def_ t, exec (.powerOnReset rate en def_) s = .next t →
      t.link.notices = [] ∧ ∀ c : Chan, t.timer c = ⟨false, 0, 0, false, false⟩) ∧
    (∀ t, exec .resetLine s = .next t →
      t.link.notices = [] ∧ ∀ c : Chan, t.timer c = ⟨false, 0, 0, false, false⟩) ∧
    (∀ t, s.inReset = false → s.link.sending = some .reply → s.link.awaiting = some .engineReset →
      exec .engineResetPerformed s = .next t →
      t.link.notices = [] ∧ ∀ c : Chan, t.timer c = ⟨false, 0, 0, false, (s.timer c).notify⟩)

/-! ### Lines -/

/-- R52, R118, R119, R125: a change of GUARD ENABLE, and a change of a trigger line that is no arrival,
record the level and change nothing else. An arrival sets the latch of every channel that is ARMED,
RUNNING or PAUSED and whose routing has the line, and hands an operand change to those whose standing
test reads it, in ascending order (the model's choice, log entries 3 and 7). -/
def Obligations.LinesAreRecordedAndTriggersArrive : Prop :=
  (∀ (n : Fin 4) (high : Bool) (s : State),
     exec (.guardEnableChange high) s =
       .next ({ s with guards := { s.guards with line := high } }).transmit ∧
     (s.lines[n].high = high ∨ s.lines[n].falling = high →
       exec (.triggerLineChange n high) s =
         .next ({ s with lines := s.lines.set n { s.lines[n] with high := high } }).transmit)) ∧
  (∀ (n : Fin 4) (s : State), s.inReset = false →
     s.lines[n].high = s.lines[n].falling →
     ∃ t : State, exec (.triggerLineChange n (!s.lines[n].high)) s = .next t.transmit ∧
       (∀ c : Chan, t.chan c =
         if (s.engine c).run.active = true ∧ (s.latches c).routing.getLsbD n.val = true then
           { s.chan c with latches :=
             { s.latches c with trig := (s.latches c).trig ||| (1#4 <<< n.val) } }
         else s.chan c) ∧
       t.handed = s.handed ++ (allChannels.filter fun c =>
         (s.engine c).run.active && (s.latches c).routing.getLsbD n.val &&
           (s.engine c).standing.any fun q => q.operand == .trig n).map Instr.operandChange ∧
       t = { s with
         channels := t.channels, handed := t.handed
         lines := s.lines.set n { s.lines[n] with high := !s.lines[n].high } })

/-- R105, R106: a change of the PAUSE line reaches the eight engines, in ascending order (the model's choice,
log entry 7). At each engine (`followPauseLine`) the LINE reason follows the line and the routing; a
RUNNING channel with a reason set is PAUSED, and a PAUSED one with none is RUNNING and, where it is not
held, goes on: in a PLAY step at its frozen position, between steps by taking steps, in a WAIT by its
release test. Then in closed form: a rise, and a fall after which channels go on in PLAY steps alone. -/
def Obligations.PauseLineRisesAndFalls : Prop :=
  (∀ (high : Bool) (s : State), exec (.pauseLineChange high) s =
     .next (([0, 1, 2, 3, 4, 5, 6, 7] : List Chan).foldl (fun (u : State) c => u.followPauseLine c)
       { s with pauseLine := high }).transmit) ∧
  (∀ (c : Chan) (s : State),
     let e := s.engine c
     let line := s.pauseLine && e.pauseRouting
     let set : Prop := e.requestPause = true ∨ line = true
     let becomes (run : RunState) : State := s.setEngine c { e with linePause := line, run := run }
     (e.run = .running → set → s.followPauseLine c = becomes .paused) ∧
     (e.run = .paused → ¬set →
       (e.held = true → s.followPauseLine c = becomes .running) ∧
       (e.held = false → (becomes .running).GoesOnTo c (s.followPauseLine c))) ∧
     (¬(e.run = .running ∧ set) → ¬(e.run = .paused ∧ ¬set) →
       s.followPauseLine c = becomes e.run)) ∧
  (∀ s : State,
     (∀ c : Chan, (s.engine c).run = .paused →
       (s.engine c).requestPause = true ∨ (s.engine c).pauseRouting = true) →
     ∃ t : State, exec (.pauseLineChange true) s = .next t.transmit ∧
       (∀ c : Chan, t.chan c = { s.chan c with engine := { s.engine c with
         linePause := (s.engine c).pauseRouting
         run := if (s.engine c).run = .running ∧
             ((s.engine c).requestPause = true ∨ (s.engine c).pauseRouting = true) then .paused
           else (s.engine c).run } }) ∧
       t = { s with channels := t.channels, pauseLine := true }) ∧
  (∀ s : State,
     (∀ c : Chan, (s.engine c).run = .paused → (s.engine c).requestPause = false →
       (s.playOf c).isSome = true) →
     (∀ c : Chan, (s.engine c).run = .running → (s.engine c).requestPause = false) →
     ∃ t : State, exec (.pauseLineChange false) s = .next t.transmit ∧
       (∀ c : Chan, t.chan c = { s.chan c with engine := { s.engine c with
         linePause := false
         run := if (s.engine c).run = .paused ∧ (s.engine c).requestPause = false then .running
           else (s.engine c).run } }) ∧
       t = { s with channels := t.channels, pauseLine := false })

/-! ### The reference clock (chapter 7) -/

/-- R135, R136, R138, R141: every answer of SET REFERENCE. The 250 ms of the lock timeout are counted in
periods of 4 ns, and the raise is handed to the blocks in their order (the model's choices, log entries 5
and 3). -/
def Obligations.SetReferenceBeginsASwitch : Prop :=
  ∀ (tag code : Byte) (s : State), s.open = true →
    (Source.ofCode code = none →
      (s.clock.state = .steady →
        exec (.setReference tag code) s =
          .next (s.withReply 0x48 tag [0x05, BitVec.ofNat 8 s.clock.source.code, 0, 0, 0])) ∧
      (∀ t k, s.clock.state = .switching t k →
        exec (.setReference tag code) s =
          .next (s.withReply 0x48 tag [0x05, BitVec.ofNat 8 s.clock.source.code, 1, 1,
            BitVec.ofNat 8 t.code]))) ∧
    (∀ src t k, Source.ofCode code = some src → s.clock.state = .switching t k →
      exec (.setReference tag code) s =
        .next (s.withReply 0x48 tag [0x06, BitVec.ofNat 8 s.clock.source.code, 1, 1,
          BitVec.ofNat 8 t.code])) ∧
    (Source.ofCode code = some s.clock.source → s.clock.state = .steady →
      exec (.setReference tag code) s =
        .next (s.withReply 0x48 tag [0x00, BitVec.ofNat 8 s.clock.source.code, 0, 0, 0])) ∧
    (Source.ofCode code = some .external → s.clock.source = .internal → s.clock.state = .steady →
      exec (.setReference tag code) s =
        .next (({ s with
          clock := { s.clock with
            state := .switching .external .request, lock := .searching, hold := true
            lockTimeout := some 62500000 }
          handed := s.handed ++ holdTargets.map Instr.holdRaise }).withReply 0x48 tag
            [0x00, 0, 1, 1, 1])) ∧
    (Source.ofCode code = some .internal → s.clock.source = .external → s.clock.state = .steady →
      exec (.setReference tag code) s =
        .next (({ s with
          clock := { s.clock with
            state := .switching .internal .request, lock := .off, hold := true, lockTimeout := none }
          handed := s.handed ++ holdTargets.map Instr.holdRaise }).withReply 0x48 tag
            [0x00, 1, 1, 1, 0]))

/-- R136 to R139: a switch ends in STEADY on a source (`ended`), the hold dropped and handed on, one
REFERENCE notice; a loss in STEADY EXTERNAL begins a switch to INTERNAL. In every other state the events
do nothing; an expiry of the lock timeout that has been handed on is taken. The model's choices: the
events handed between the blocks (log entry 3), and that an expiry which the count has not handed on is
the expiry now (log entry 27). -/
def Obligations.SwitchesEnd : Prop :=
  ∀ (s : State), s.inReset = false →
    let untimed : List Instr := s.handed.erase .lockTimeoutExpiry
    let ended (handed : List Instr) (src : Source) (lock : LockStatus) (cause : ReferenceCause) :
        State :=
      ({ s with
        clock := { s.clock with
          source := src, state := .steady, lock := lock, hold := false, lockTimeout := none }
        handed := handed ++ holdTargets.map Instr.holdDrop }).notify (.reference src cause)
    (∀ k, s.clock.state = .switching .external k →
      exec .lockAcquired s = .next (ended untimed .external .locked .switched).transmit ∧
      exec .lockTimeoutExpiry s = .next
        (ended (untimed.erase .lockTimeoutExpiry) .internal .off .lockFailed).transmit) ∧
    (s.clock.state = .switching .internal .request →
      exec .transferDone s = .next (ended untimed .internal .off .switched).transmit) ∧
    (s.clock.state = .switching .internal .loss →
      exec .transferDone s = .next (ended untimed .internal .off .lost).transmit) ∧
    ((∀ k, s.clock.state ≠ .switching .external k) →
      exec .lockAcquired s = .next s.transmit ∧
      exec .lockTimeoutExpiry s = .next ({ s with handed := untimed }).transmit) ∧
    ((∀ k, s.clock.state ≠ .switching .internal k) → exec .transferDone s = .next s.transmit) ∧
    (s.clock.state = .steady → s.clock.source = .external →
      exec .referenceLost s = .next ({ s with
        clock := { s.clock with
          state := .switching .internal .loss, lock := .off, hold := true, lockTimeout := none }
        handed := s.handed ++ holdTargets.map Instr.holdRaise }).transmit) ∧
    (s.clock.state ≠ .steady ∨ s.clock.source = .internal →
      exec .referenceLost s = .next s.transmit)

/-- R141, R81: the raise of the hold freezes a channel that is ARMED, RUNNING or PAUSED and changes
nothing else; the drop lets a held channel go on: an ARMED one makes its deferred start test (R84), a
RUNNING one goes on in its PLAY step, takes steps or makes its release test (R85, R98), a PAUSED one waits
for its reasons. At TB and IS neither changes anything. A channel is held while RCU's hold is raised: a raise
of an earlier hold that is taken after the drop, and a drop of an earlier hold that is taken while a newer
hold stands, leave every channel as it is, one that a RUN armed since among them (the model's reading of R81,
log entry 30). A raise or a drop that RCU does not hand on and that is not handed changes nothing (the
model's choice, log entry 19). A channel outside a PLAY step first takes the sample periods that stand
handed to it before the drop (`passPeriods`: OperandChangesAreRetested); here no operand change, raise or
drop stands handed to it before (the model's reading of R126 and R145, log entry 32). -/
def Obligations.HoldReachesTheBlocks : Prop :=
  ∀ (target : HoldTarget) (s : State), s.inReset = false →
    let raise : Instr := .holdRaise target
    let drop : Instr := .holdDrop target
    let first (e : Instr) : Prop := ∀ c : Chan, target = .channel c → s.signalsBefore c e = []
    (s.clock.hold = true → first raise →
      (∀ c : Chan, target = .channel c → (s.engine c).run.active = true →
        exec raise s =
          .next ((s.taken raise).setEngine c { s.engine c with held := true }).transmit) ∧
      ((∀ c : Chan, target = .channel c → (s.engine c).run.active = false) →
        exec raise s = .next (s.taken raise).transmit)) ∧
    (s.clock.hold = false → raise ∉ s.handed → exec raise s = .next s.transmit) ∧
    (s.clock.hold = false → first raise → exec raise s = .next (s.taken raise).transmit) ∧
    (s.clock.hold = true → drop ∉ s.handed → exec drop s = .next s.transmit) ∧
    (s.clock.hold = false ∨ drop ∈ s.handed → first drop →
      ((∀ c : Chan, target = .channel c → s.clock.hold = true ∨ (s.engine c).held = false) →
        exec drop s = .next (s.taken drop).transmit) ∧
      (∀ c : Chan, target = .channel c → s.clock.hold = false → (s.engine c).held = true →
        let free := s.setEngine c { s.engine c with held := false }
        let v := (free.passPeriods c (s.periodsBefore c drop)).taken drop
        ((s.engine c).run = .paused → exec drop s = .next (free.taken drop).transmit) ∧
        ((s.engine c).run = .running →
          ((v.engine c).run = .running → (v.engine c).held = false →
            ∃ t : State, v.GoesOnTo c t ∧ exec drop s = .next t.transmit) ∧
          ((v.engine c).run ≠ .running → (v.engine c).run ≠ .armed →
            exec drop s = .next v.transmit)) ∧
        (∀ q, (s.engine c).run = .armed → (s.engine c).start = some q →
          (v.operand c q.operand = q.negated → exec drop s = .next v.transmit) ∧
          (v.operand c q.operand ≠ q.negated →
            ∃ t : State,
              (if q.negated = true then v else v.consume c q.operand).StartsTo c t ∧
                exec drop s = .next t.transmit))))

/-- R144, R155: SET RATE and READ CLOCK, the latter in STEADY and in SWITCHING to either source. A SET RATE
that is taken withdraws a sample period event that was handed to the channel before and has not been taken
(the model's reading of R144, log entry 26), and RANGE is tested before CHANNEL_ACTIVE (the model's choice,
log entry 33). The milliseconds left are computed from periods of 4 ns (the
model's choice, log entry 5). -/
def Obligations.RatesAndTheClock : Prop :=
  ∀ (tag : Byte) (c : Chan) (d : Quad) (s : State), s.open = true →
    let lockCode : Byte := match s.clock.lock with | .off => 0 | .searching => 1 | .locked => 2
    let held : Byte := if s.clock.hold then 1 else 0
    let source : Byte := match s.clock.source with | .internal => 0 | .external => 1
    let rest : List Byte :=
      (if s.straps.refDefault then 1 else 0) ::
        s.channels.toList.flatMap fun x => byte4 x.rate.decimation
    (d.toNat = 0 ∨ 65536 < d.toNat →
      exec (.setRate tag (BitVec.ofNat 8 c.val) d) s =
        .next (s.withReply 0x4A tag (0x05 :: byte4 (s.rate c).decimation))) ∧
    (1 ≤ d.toNat → d.toNat ≤ 65536 → (s.engine c).run.active = true →
      exec (.setRate tag (BitVec.ofNat 8 c.val) d) s =
        .next (s.withReply 0x4A tag (0x13 :: byte4 (s.rate c).decimation))) ∧
    (1 ≤ d.toNat → d.toNat ≤ 65536 → (s.engine c).run.active = false →
      exec (.setRate tag (BitVec.ofNat 8 c.val) d) s =
        .next ({ s.setRate c ⟨d.toNat, 0⟩ with
          handed := s.handed.filter fun e => decide (e ≠ Instr.samplePeriod c) }.withReply 0x4A tag
            (0x00 :: bytesOfQuad d))) ∧
    (s.clock.state = .steady → s.clock.lockTimeout = none →
      exec (.readClock tag) s = .next (s.withReply 0x49 tag
        ([0x00, source, 0, 0, 0, 0, lockCode, held, 0, 0] ++ rest))) ∧
    (∀ n, s.clock.state = .switching .external .request → s.clock.lockTimeout = some n →
      exec (.readClock tag) s = .next (s.withReply 0x49 tag
        ([0x00, source, 1, 1, 1, 0, lockCode, held, 1,
          BitVec.ofNat 8 (max 1 ((n + 249999) / 250000))] ++ rest))) ∧
    (s.clock.lockTimeout = none →
      (s.clock.state = .switching .internal .request →
        exec (.readClock tag) s = .next (s.withReply 0x49 tag
          ([0x00, source, 1, 1, 0, 0, lockCode, held, 0, 0] ++ rest))) ∧
      (s.clock.state = .switching .internal .loss →
        exec (.readClock tag) s = .next (s.withReply 0x49 tag
          ([0x00, source, 1, 1, 0, 1, lockCode, held, 0, 0] ++ rest))))

/-! ### Sample periods and the played code (R143, R160 to R163, R168) -/

/-- R143, R162, R163, R166, R168: a sample period that calls for the rest level (`rested`), of a channel
that is IDLE, ARMED or FAULTED, in a WAIT that has no played code to hold, PAUSED between steps, or PAUSED
in a PLAY that carried the rest level; one that carries a played code (`carried`), saturated to the clamp
pair in force, in a WAIT with HOLD_LAST, RUNNING or PAUSED, or PAUSED in a PLAY; and one at which a RUNNING
channel between steps takes steps. The pending settings come into force first. In a hold, and at a held
channel, there is none: SAMPLE_PERIOD changes nothing, and one that stands handed stays handed (the model's
reading of R141 and R162, log entry 19); outside a hold, here no operand change, raise or drop stands handed
to the channel before (log entry 32). What a PLAY or a WAIT that pauses carries, the marker lines in a
pause and the saturation of an old code are the model's choices (log entries 15, 29, 24 and 25). -/
def Obligations.SamplePeriodCarries : Prop :=
  ∀ (c : Chan) (s : State), s.inReset = false →
    let x := s.chan c
    let e := s.engine c
    let g := x.output.pending.getD x.output.inForce
    let rested : State := (s.taken (.samplePeriod c)).setChan c { x with
      rate := { x.rate with phase := 0 }
      output := { x.output with
        inForce := g, pending := none, port := g.rest, portKind := .rest
        lineA := x.output.levelA != g.invertA, lineB := x.output.levelB != g.invertB } }
    let carried (code : Half) : State :=
      let r := saturate g code.toInt
      (s.taken (.samplePeriod c)).setChan c { x with
        rate := { x.rate with phase := 0 }
        engine := { e with lastCode := some r.1 }
        output := { x.output with
          inForce := g, pending := none, port := r.1, portKind := .carried
          lineA := x.output.levelA != g.invertA, lineB := x.output.levelB != g.invertB
          clipped := x.output.clipped || r.2 } }
    (s.clock.hold = true → exec (.samplePeriod c) s = .next s.transmit) ∧
    (s.signalsBefore c (.samplePeriod c) = [] → e.held = true →
      exec (.samplePeriod c) s = .next s.transmit) ∧
    (s.clock.hold = false → s.signalsBefore c (.samplePeriod c) = [] → e.held = false →
      (e.run.inProgram = false ∨ (e.run = .paused ∧ e.activity = .between) ∨
          (e.run = .paused ∧ (s.playOf c).isSome = true ∧ x.output.portKind = .rest) →
        exec (.samplePeriod c) s = .next rested.transmit) ∧
      (∀ q out, e.run.inProgram = true → e.activity = .waiting ⟨q, out⟩ →
        out = .rest ∨ e.lastCode = none →
        exec (.samplePeriod c) s = .next rested.transmit) ∧
      (∀ q code, e.run.inProgram = true → e.activity = .waiting ⟨q, .holdLast⟩ →
        e.lastCode = some code →
        exec (.samplePeriod c) s = .next (carried code).transmit) ∧
      (e.run = .paused → (s.playOf c).isSome = true → x.output.portKind ≠ .rest →
        exec (.samplePeriod c) s = .next (carried x.output.port).transmit) ∧
      (e.run = .running → e.activity = .between →
        exec (.samplePeriod c) s = .next (rested.stepEvent c).transmit))

/-- R89, R90, R103, R147, R160, R161, R168: a sample period of a RUNNING channel that is PLAYING or HOLDING
and not held delivers the sample at its position as its played code (`delivered`). With more samples in
the pass the position moves on by one. At the end of a pass the timer takes its T7 tap event first
(`tapped`); then the next counted pass begins, or, after the last and after each hold pass, the hold
condition is tested: false, another hold pass, counted and held at 65535; true, or with none, the step
completes. `completePlay`: the end marker actions, the reference released, and then the pending stop or a
sequential advance. No operand change, raise or drop stands handed to the channel before (log entry 32). -/
def Obligations.SamplePeriodDeliversASample : Prop :=
  (∀ (c : Chan) (p : PlayRecord) (s : State), s.inReset = false → s.clock.hold = false →
    s.signalsBefore c (.samplePeriod c) = [] →
    (s.engine c).run = .running → (s.engine c).held = false →
    let x := s.chan c
    let g := x.output.pending.getD x.output.inForce
    let r := saturate g (scaledCode g p.scale (s.sampleAt p.firstPage p.position))
    let delivered : State := (s.taken (.samplePeriod c)).setChan c { x with
      rate := { x.rate with phase := 0 }
      engine := { x.engine with lastCode := some r.1 }
      output := { x.output with
        inForce := g, pending := none, port := r.1, portKind := .played
        lineA := x.output.levelA != g.invertA, lineB := x.output.levelB != g.invertB
        clipped := x.output.clipped || r.2 } }
    let tapped : State :=
      if x.timer.running = true ∧ x.timer.tap = 7 then
        if x.timer.count ≤ 1 then delivered.expireTimer c
        else delivered.setTimer c { x.timer with count := x.timer.count - 1 }
      else delivered
    let goesOn (u : State) (a : Activity) : Prop :=
      exec (.samplePeriod c) s =
        .next (u.setEngine c { u.engine c with activity := a }).transmit
    (x.engine.activity = .playing p → p.position + 1 < p.sampleLength →
      goesOn delivered (.playing { p with position := p.position + 1 })) ∧
    (x.engine.activity = .holding p → p.position + 1 < p.sampleLength →
      goesOn delivered (.holding { p with position := p.position + 1 })) ∧
    (x.engine.activity = .playing p → p.sampleLength ≤ p.position + 1 → p.pass < p.passCount →
      goesOn tapped (.playing { p with pass := p.pass + 1, position := 0 })) ∧
    ((x.engine.activity = .playing p ∧ p.passCount ≤ p.pass) ∨ x.engine.activity = .holding p →
      p.sampleLength ≤ p.position + 1 →
      (p.hold = none → exec (.samplePeriod c) s = .next (tapped.completePlay c p).transmit) ∧
      (∀ q, p.hold = some q →
        (tapped.operand c q.operand = q.negated →
          goesOn tapped (.holding { p with holdPass := min 65535 (p.holdPass + 1), position := 0 })) ∧
        (tapped.operand c q.operand ≠ q.negated →
          exec (.samplePeriod c) s = .next
            ((if q.negated = true then tapped else tapped.consume c q.operand).completePlay c
              p).transmit)))) ∧
  (∀ (c : Chan) (p : PlayRecord) (s : State),
    let o := s.output c
    let mark (level : Bool) (a : MarkerAction) : Bool :=
      match a with | .keep => level | .set => true | .clear => false
    let u := (s.setOutput c
      { o with levelA := mark o.levelA p.aEnd, levelB := mark o.levelB p.bEnd }).release p.serial
    ((s.engine c).stopPending = true →
      s.completePlay c p =
        (u.setChan c (u.chan c).stopped).notify (.runEnd c .stopped (s.engine c).index none)) ∧
    ((s.engine c).stopPending = false → s.completePlay c p = u.advanceEvent c))

/-- R160, R161: the quotient is the nearest integer, a half away from zero; saturation gives a code
within the clamp pair, the value itself where it lies within the pair, and says when it changed it. -/
def Obligations.PlayedCodesAreRoundedAndClamped : Prop :=
  (∀ q : Int,
    2 * (roundQuotient q * 268435456 - q) ≤ 268435456 ∧
    -268435456 ≤ 2 * (roundQuotient q * 268435456 - q) ∧
    (2 * (roundQuotient q * 268435456 - q) = 268435456 → 0 < q) ∧
    (2 * (roundQuotient q * 268435456 - q) = -268435456 → q < 0)) ∧
  (∀ (g : OutputSettings) (v : Int), g.clampLow.toInt ≤ g.clampHigh.toInt →
    (v < g.clampLow.toInt → saturate g v = (g.clampLow, true)) ∧
    (g.clampHigh.toInt < v → saturate g v = (g.clampHigh, true)) ∧
    (g.clampLow.toInt ≤ v → v ≤ g.clampHigh.toInt →
      (saturate g v).1.toInt = v ∧ (saturate g v).2 = false)) ∧
  (∀ (g : OutputSettings) (scale : Option Half) (x : Half),
    scaledCode g scale x =
      roundQuotient (x.toInt * g.gain.toInt * (scale.getD 0x4000).toInt) + g.offset.toInt ∧
    -163840 ≤ scaledCode g scale x ∧ scaledCode g scale x ≤ 163839)

/-! ### Tap events, timers and operand changes (R125, R146, R149, R150) -/

/-- R134, R141, R146, R149: a tap event that the divider chain has handed on lowers every RUNNING timer that
counts the tap, here at most one of them to 0, whose expiry then happens, and T3 lowers the interval
remaining of a walk that counts it. While the hold stands a tap event reaches nothing, and one that was
handed on waits for the drop (log entry 19). A tap event that was not handed on is that divider reaching
its count now, with the other taps of that master period handed on (log entry 13). R150: the expiry of a
timer (`expireTimer`): STOPPED with count 0, its latch set, a TIMER notice if its enable is on, and an
operand change for the channel if its standing test reads TIMER. TIMER_EXPIRY is the tap event that a
timer at its last count expires by; with no such timer it changes nothing (log entry 6). -/
def Obligations.TapEventsAndTimerExpiry : Prop :=
  (∀ (k : Fin 7) (s : State), s.inReset = false →
     let counts (c : Chan) : Prop := (s.timer c).running = true ∧ (s.timer c).tap.val = k.val
     let lowered (c : Chan) : Channel :=
       { s.chan c with timer := { s.timer c with count := (s.timer c).count - 1 } }
     let rest (t : State) : State := { s with
       channels := t.channels
       handed := s.handed.erase (.timeBaseTap k)
       scanner := if k = 3 ∧ s.scanner.counting = true then
         { s.scanner with intervalRemaining := s.scanner.intervalRemaining.map (· - 1) }
         else s.scanner }
     (s.clock.hold = true → exec (.timeBaseTap k) s = .next s.transmit) ∧
     (s.clock.hold = false → .timeBaseTap k ∉ s.handed →
       let p := (s.clock.timeBase / (250 * 10 ^ k.val) + 1) * (250 * 10 ^ k.val) % 250000000
       exec (.timeBaseTap k) s = exec (.timeBaseTap k) { s with
         clock := { s.clock with timeBase := p }
         handed := .timeBaseTap k :: (s.handed ++ (([0, 1, 2, 3, 4, 5, 6] : List (Fin 7)).filter
           fun j => decide (j ≠ k ∧ p % (250 * 10 ^ j.val) = 0)).map Instr.timeBaseTap) }) ∧
     (s.clock.hold = false → .timeBaseTap k ∈ s.handed →
       (k = 3 → s.scanner.counting = true → ∀ n, s.scanner.intervalRemaining = some n → 1 < n) →
       ((∀ c : Chan, counts c → 1 < (s.timer c).count) →
         ∃ t : State, exec (.timeBaseTap k) s = .next t.transmit ∧
           (∀ c : Chan, (counts c → t.chan c = lowered c) ∧ (¬counts c → t.chan c = s.chan c)) ∧
           t = rest t) ∧
       (∀ d : Chan, counts d → (s.timer d).count ≤ 1 →
         (∀ c : Chan, c ≠ d → counts c → 1 < (s.timer c).count) →
         ∃ t : State, exec (.timeBaseTap k) s = .next (t.expireTimer d).transmit ∧
           t.chan d = s.chan d ∧
           (∀ c : Chan, c ≠ d →
             (counts c → t.chan c = lowered c) ∧ (¬counts c → t.chan c = s.chan c)) ∧
           t = rest t))) ∧
  (∀ (c : Chan) (s : State),
     s.expireTimer c =
       (let t := s.setTimer c
           { s.timer c with running := false, count := 0, expired := true }
        let u := if (s.timer c).notify = true then t.notify (.timer c) else t
        if (s.engine c).standing.map Condition.operand = some .timer then
          { u with handed := u.handed ++ [.operandChange c] }
        else u)) ∧
  (∀ (c : Chan) (s : State), s.inReset = false →
     (∀ k : Fin 7, (s.timer c).running = true → (s.timer c).count ≤ 1 →
       (s.timer c).tap.val = k.val → exec (.timerExpiry c) s = exec (.timeBaseTap k) s) ∧
     ((s.timer c).running = false ∨ 1 < (s.timer c).count ∨ (s.timer c).tap = 7 →
       exec (.timerExpiry c) s = .next s.transmit))

/-- R84, R98, R125: an operand change taken by a channel. With no standing test to make (IDLE, FAULTED,
PAUSED, RUNNING in a PLAY or between steps, or held) it changes nothing. A channel whose standing test is
false goes on waiting for it. With a true test, which consumes the latch it read, an ARMED channel starts:
PAUSED at its step index where a pause reason is set, else RUNNING and taking steps from there; and a
WAITING channel makes a sequential advance and takes steps.
R126, R145, the model's reading of which is log entry 32: before it goes on, a channel outside a PLAY step
takes the sample periods that stand handed to it before that event (`passPeriods`), each as by SAMPLE_PERIOD,
but for one that the hold keeps from it, which is withdrawn; and a channel takes the operand changes, raises
and drops that stand handed to it before an event ahead of that event, in their order (`takeSignals`), each
as by its own command. -/
def Obligations.OperandChangesAreRetested : Prop :=
  (∀ (c : Chan) (q : Condition) (s : State), s.inReset = false →
    s.signalsBefore c (.operandChange c) = [] →
    let t := s.taken (.operandChange c)
    let u := (s.passPeriods c (s.periodsBefore c (.operandChange c))).taken (.operandChange c)
    let v := if q.negated = true then u else u.consume c q.operand
    ((s.engine c).run = .idle ∨ (s.engine c).run = .faulted ∨ (s.engine c).run = .paused →
      exec (.operandChange c) s = .next t.transmit) ∧
    ((s.engine c).held = true → exec (.operandChange c) s = .next t.transmit) ∧
    ((s.engine c).run = .running →
      (s.playOf c).isSome = true ∨ (s.engine c).activity = .between →
      exec (.operandChange c) s = .next t.transmit) ∧
    (∀ out, (s.engine c).run = .running → (s.engine c).held = false →
      (s.engine c).activity = .waiting ⟨q, out⟩ →
      (u.operand c q.operand = q.negated → exec (.operandChange c) s = .next u.transmit) ∧
      (u.operand c q.operand ≠ q.negated →
        exec (.operandChange c) s = .next (v.advanceEvent c).transmit)) ∧
    ((s.engine c).run = .armed → (s.engine c).held = false → (s.engine c).start = some q →
      (u.operand c q.operand = q.negated → exec (.operandChange c) s = .next u.transmit) ∧
      (u.operand c q.operand ≠ q.negated →
        ((s.engine c).requestPause = true ∨ (s.engine c).linePause = true →
          exec (.operandChange c) s = .next
            (v.setEngine c { u.engine c with
              run := .paused, activity := .between, start := none, stepsAtEvent := 0 }).transmit) ∧
        ((s.engine c).requestPause = false → (s.engine c).linePause = false →
          exec (.operandChange c) s = .next
            ((v.setEngine c { u.engine c with run := .running, start := none }).stepEvent
              c).transmit)))) ∧
  (∀ (c : Chan) (n : Nat) (s : State),
    let passive : Prop := (s.engine c).run = .armed ∨
      ((s.engine c).run = .running ∧ s.playOf c = none)
    s.passPeriods c 0 = s ∧
    (¬passive → s.passPeriods c n = s) ∧
    (passive → s.clock.hold = true →
      s.passPeriods c (n + 1) = (s.taken (.samplePeriod c)).passPeriods c n) ∧
    (passive → s.clock.hold = false → s.inReset = false → (s.engine c).held = false →
      s.signalsBefore c (.samplePeriod c) = [] →
      ∀ w, exec (.samplePeriod c) s = .next w → s.passPeriods c (n + 1) = w.passPeriods c n)) ∧
  (∀ (c : Chan) (e x : Instr) (es : List Instr) (s : State), s.inReset = false →
    let t := s.takeSignals (s.signalsBefore c e)
    s.takeSignals [] = s ∧
    (signalsAt c x = true → x ∈ s.handed → s.signalsBefore c x = [] →
      ∀ w, exec x s = .next w → s.takeSignals (x :: es) = w.takeSignals es) ∧
    (e = .operandChange c ∨ (e = .samplePeriod c ∧ s.clock.hold = false) ∨
        (e = .holdRaise (.channel c) ∧ (s.clock.hold = true ∨ e ∈ s.handed)) ∨
        (e = .holdDrop (.channel c) ∧ (s.clock.hold = false ∨ e ∈ s.handed)) →
      t.inReset = false → t.clock.hold = s.clock.hold → (e ∈ s.handed → e ∈ t.handed) →
      t.signalsBefore c e = [] → exec e s = exec e t))

/-! ### Requests on the engines (chapter 5) -/

/-- R82, R83, R84, R145: a RUN of IDLE channels whose start tests are false, or that the hold defers: every
named channel is ARMED at the start index with its start condition, its phase at 0, and a sample period
event or an operand change that was handed to it before and has not been taken is withdrawn, so that the
named channels have their sample periods from this RUN onward (the model's reading of R125 and R145, log
entry 26); the reply names no channel started. While the hold is dropped a RUN arms them all so, and then each in ascending order (the
model's choice, log entry 7) makes its start test, within the request, and where it is true, which
consumes the latch it read, starts; the reply names those that started. With condition ALWAYS that is
every one. The refusals past the first RANGE test carry the mask of the channels that failed. What the steps
queue and the reply reach the transmitter in one event (the model's choice, log entry 11). -/
def Obligations.RunArmsOrRefuses : Prop :=
  (∀ (tag mask code : Byte) (first : Half) (q : Condition) (s : State), s.open = true →
     Condition.ofCode code.toNat q.negated = some q → mask ≠ 0 →
     (∀ c ∈ maskChannels mask, (s.engine c).run = .idle ∧ first.toNat < s.windowSize c) →
     let arms (t : State) : Prop :=
       (∀ c ∈ maskChannels mask, t.chan c = { s.chan c with
         engine := { s.engine c with
           run := .armed, activity := .between, held := s.clock.hold, stopPending := false
           start := some q, index := first.toNat, lastCode := none, stepsAtEvent := 0, loops := []
           returns := [] }
         rate := { s.rate c with phase := 0 } }) ∧
       (∀ c, c ∉ maskChannels mask → t.chan c = s.chan c) ∧
       t = { s with
         channels := t.channels
         handed := s.handed.filter fun e => decide
           (e ∉ (maskChannels mask).map Instr.samplePeriod ++
             (maskChannels mask).map Instr.operandChange) }
     (s.clock.hold = true ∨
       (q.operand ≠ .last ∧ ∀ c ∈ maskChannels mask, s.operand c q.operand = q.negated) →
       ∃ t : State,
         exec (.run tag mask first code (if q.negated then 1 else 0)) s =
           .next (t.withReply 0x38 tag [0x00, 0x00]) ∧ arms t) ∧
     (s.clock.hold = false → q = ⟨.always, false⟩ →
       ∃ t : State, arms t ∧
         exec (.run tag mask first code 0) s =
           .next (((maskChannels mask).foldl (fun u c => u.startChannel c) t).withReply 0x38 tag
             [0x00, mask])) ∧
     (s.clock.hold = false →
       ∃ t : State, arms t ∧
         let tests (x : State × Byte) (c : Chan) : State × Byte :=
           if x.1.operand c q.operand = q.negated then x
           else
             ((if q.negated = true then x.1 else x.1.consume c q.operand).startChannel c,
               x.2 ||| onlyChan c)
         let tested := (([0, 1, 2, 3, 4, 5, 6, 7] : List Chan).filter fun c =>
           mask.getLsbD c.val).foldl tests (t, 0)
         exec (.run tag mask first code (if q.negated then 1 else 0)) s =
           .next (tested.1.withReply 0x38 tag [0x00, tested.2]))) ∧
  (∀ (c : Chan) (s : State), s.StartsTo c (s.startChannel c)) ∧
  (∀ (tag mask code sense : Byte) (first : Half) (s : State), s.open = true →
     code.toNat ≤ 15 → sense.toNat ≤ 1 →
     let named (p : Chan → Bool) : Byte := maskOf fun c => mask.getLsbD c.val && p c
     ((∃ c ∈ maskChannels mask, (s.engine c).run ≠ .idle) →
       exec (.run tag mask first code sense) s = .next (s.withReply 0x38 tag
         [0x13, named fun c => decide ((s.engine c).run ≠ .idle)])) ∧
     ((∀ c ∈ maskChannels mask, (s.engine c).run = .idle) →
       ((∃ c ∈ maskChannels mask, s.windowSize c = 0) →
         exec (.run tag mask first code sense) s = .next (s.withReply 0x38 tag
           [0x14, named fun c => decide (s.windowSize c = 0)])) ∧
       ((∀ c ∈ maskChannels mask, s.windowSize c ≠ 0) →
         (∃ c ∈ maskChannels mask, s.windowSize c ≤ first.toNat) →
         exec (.run tag mask first code sense) s = .next (s.withReply 0x38 tag
           [0x05, named fun c => decide (s.windowSize c ≤ first.toNat)]))))

/-- R35, R102, R103, R108: STOP of one channel. A channel that is active and holds no reference is stopped,
by either mode, with its RUN_END notice; one in a PLAY step is stopped by NOW, its reference released
first; AFTER_PLAY in a PLAY step sets stop-pending; an IDLE or FAULTED channel is left as it stands. STOP
of any channels does so at each in ascending order, so that the FREED and RUN_END notices stand in that
order, and the reply names the channels stopped and those left with stop-pending set. Its notices and its
reply reach the transmitter in one event (the model's choice, log entry 11).
`release`: the count of the image of that serial comes one lower, and a RETIRED image whose last reference
goes leaves the list and is freed. -/
def Obligations.StopEndsARun : Prop :=
  (∀ (tag mode : Byte) (c : Chan) (s : State), s.open = true → mode.toNat ≤ 1 →
    ((s.engine c).run.active = true → s.playOf c = none →
      exec (.stop tag (onlyChan c) mode) s = .next
        (((s.setChan c (s.chan c).stopped).notify
          (.runEnd c .stopped (s.engine c).index none)).withReply 0x39 tag [0x00, onlyChan c, 0x00])) ∧
    (∀ p, (s.engine c).run.active = true → s.playOf c = some p →
      exec (.stop tag (onlyChan c) 0) s = .next
        ((((s.release p.serial).setChan c (s.chan c).stopped).notify
          (.runEnd c .stopped (s.engine c).index none)).withReply 0x39 tag [0x00, onlyChan c, 0x00])) ∧
    ((s.engine c).run.inProgram = true → (s.playOf c).isSome = true →
      exec (.stop tag (onlyChan c) 1) s = .next
        ((s.setEngine c { s.engine c with stopPending := true }).withReply 0x39 tag
          [0x00, 0x00, onlyChan c])) ∧
    ((s.engine c).run.active = false → (s.engine c).stopPending = false → s.playOf c = none →
      exec (.stop tag (onlyChan c) mode) s = .next (s.withReply 0x39 tag [0x00, 0x00, 0x00]))) ∧
  (∀ (tag mask mode : Byte) (s : State), s.open = true → mask ≠ 0 → mode.toNat ≤ 1 →
    (∀ c : Chan, (s.playOf c).isSome = true → (s.engine c).run.inProgram = true) →
    (∀ c : Chan, (s.engine c).stopPending = true → (s.playOf c).isSome = true) →
    let ended (u : State) (c : Chan) : State :=
      (u.setChan c (u.chan c).stopped).notify (.runEnd c .stopped (s.engine c).index none)
    let stops (u : State) (c : Chan) : State :=
      if (s.engine c).run.active then
        match s.playOf c with
        | none => ended u c
        | some p =>
          if mode = 0 then ended (u.release p.serial) c
          else u.setEngine c { s.engine c with stopPending := true }
      else u
    exec (.stop tag mask mode) s = .next
      (((([0, 1, 2, 3, 4, 5, 6, 7] : List Chan).filter fun c => mask.getLsbD c.val).foldl stops
        s).withReply 0x39 tag
        [0x00,
          maskOf fun c => mask.getLsbD c.val && (s.engine c).run.active &&
            (mode == 0 || (s.playOf c).isNone),
          maskOf fun c => mask.getLsbD c.val && (mode == 1 && (s.playOf c).isSome)])) ∧
  (∀ (serial : Nat) (s : State),
    let lower (i : Image) : Image := if i.serial = serial then { i with refs := i.refs - 1 } else i
    let handles := s.handles.map fun e => (e.1, ⟨e.2.current.map lower, e.2.incoming.map lower⟩)
    ((∀ e ∈ s.retired, e.image.serial = serial → 1 < e.image.refs) →
      s.release serial = { s with
        handles := handles
        retired := s.retired.map fun e => { e with image := lower e.image } }) ∧
    (∀ before e after, s.retired = before ++ e :: after → e.image.serial = serial →
      e.image.refs = 1 → (∀ x ∈ before ++ after, x.image.serial ≠ serial) →
      s.release serial = ({ s with
        handles := handles
        retired := before ++ after
        free := giveBack ⟨e.image.firstPage, e.image.pageCount⟩ s.free }).notify
          (.freed serial e.origin e.image.pageCount)))

/-- R104, R106: PAUSE sets the REQUEST reason of each named channel that is ARMED, RUNNING or PAUSED and
pauses those that are RUNNING; RESUME clears it on each named channel, in ascending order (the model's
choice, log entry 7), and a PAUSED one with no LINE reason is RUNNING again and, where it is not held, goes
on: in a PLAY step at its frozen position, between steps by taking steps, in a WAIT by its release test
(`resumeChannel`). In closed form where the channels go on in PLAY steps alone. Each reply carries the
reasons set, and reaches the transmitter in one event with what the steps queue (log entry 11). -/
def Obligations.PauseAndResume : Prop :=
  (∀ (tag mask : Byte) (s : State), s.open = true → mask ≠ 0 →
    let t := (([0, 1, 2, 3, 4, 5, 6, 7] : List Chan).filter fun c => mask.getLsbD c.val).foldl
      (fun (u : State) c => u.resumeChannel c) s
    exec (.resume tag mask) s = .next (t.withReply 0x3B tag
      [0x00, maskOf fun c => (t.engine c).requestPause])) ∧
  (∀ (c : Chan) (s : State),
    let e := s.engine c
    let becomes (run : RunState) : State := s.setEngine c { e with requestPause := false, run := run }
    (e.run = .paused → e.linePause = false →
      (e.held = true → s.resumeChannel c = becomes .running) ∧
      (e.held = false → (becomes .running).GoesOnTo c (s.resumeChannel c))) ∧
    (e.run ≠ .paused ∨ e.linePause = true → (e.run = .running → e.linePause = false) →
      s.resumeChannel c = becomes e.run)) ∧
  ∀ (tag mask : Byte) (s : State), s.open = true → mask ≠ 0 →
    ((∀ c : Chan, (s.engine c).run = .paused →
        (s.engine c).requestPause = true ∨ (s.engine c).linePause = true) →
      ∃ t : State,
        exec (.pause tag mask) s = .next (t.withReply 0x3A tag
          [0x00, maskOf fun c => (t.engine c).requestPause]) ∧
        (∀ c : Chan, t.chan c =
          if mask.getLsbD c.val = true ∧ (s.engine c).run.active = true then
            { s.chan c with engine := { s.engine c with
              requestPause := true
              run := if (s.engine c).run = .running then .paused else (s.engine c).run } }
          else s.chan c) ∧
        t = { s with channels := t.channels }) ∧
    ((∀ c : Chan, mask.getLsbD c.val = true → (s.engine c).linePause = false →
        ((s.engine c).run = .paused → (s.playOf c).isSome = true)) →
      (∀ c : Chan, (s.engine c).run = .running → (s.engine c).linePause = false) →
      ∃ t : State,
        exec (.resume tag mask) s = .next (t.withReply 0x3B tag
          [0x00, maskOf fun c => (t.engine c).requestPause]) ∧
        (∀ c : Chan, t.chan c =
          if mask.getLsbD c.val = true then
            { s.chan c with engine := { s.engine c with
              requestPause := false
              run := if (s.engine c).run = .paused ∧ (s.engine c).linePause = false then .running
                else (s.engine c).run } }
          else s.chan c) ∧
        t = { s with channels := t.channels })

/-- R109, R110, R111, R208: READ CHANNEL changes nothing and carries the fields of the channel; CLEAR FAULT
takes a FAULTED channel to IDLE and gives its fault record; SET POLICY replaces the three settings, the
LINE reason follows the new routing, and within the request a RUNNING channel with a reason set is PAUSED
and a PAUSED one with none is RUNNING again and, where it is not held, goes on (R105, R106); what its steps
queue and the reply reach the transmitter in one event (the model's choice, log entry 11). The codes of
run states, activities, fault causes, policies and conditions (R67, R206). The trigger latch mask is one
byte with TRIG0 in bit 0 (the model's reading, log entry 14). -/
def Obligations.ChannelRequests : Prop :=
  (∀ (tag policy routing enable : Byte) (c : Chan) (s : State), s.open = true →
    let x := s.chan c
    let e := x.engine
    let bit (b : Bool) : Byte := if b then 1 else 0
    let condition (q : Condition) : List Byte := [BitVec.ofNat 8 q.operand.code, bit q.negated]
    let faultBytes (f : FaultRecord) : List Byte :=
      BitVec.ofNat 8 f.cause.code :: byte2 f.index ++
        (match f.handle with | some h => 1 :: byte2 h | none => [0, 0, 0]) ++
        [BitVec.ofNat 8 f.loopDepth, BitVec.ofNat 8 f.returnDepth]
    exec (.readChannel tag (BitVec.ofNat 8 c.val)) s = .next (s.withReply 0x3C tag (
      [0x00, BitVec.ofNat 8 e.run.code, bit e.requestPause, bit e.linePause, bit e.held,
        bit e.stopPending] ++
      (match e.start with | some q => 1 :: condition q | none => [0, 0, 0]) ++
      (if e.run = .idle then [0, 0, 0] else 1 :: byte2 e.index) ++
      (if e.run.inProgram then [1, BitVec.ofNat 8 e.activity.code] else [0, 0]) ++
      (match e.run.inProgram, s.playOf c with
        | true, some p =>
          1 :: (byte2 p.handle ++ byte2 p.serial ++ byte2 p.pass ++ byte2 p.passCount ++
            byte2 p.holdPass)
        | _, _ => [0, 0, 0, 0, 0, 0, 0, 0, 0, 0, 0]) ++
      (BitVec.ofNat 8 e.loops.length :: e.loops.flatMap fun r => byte2 r.first ++ byte2 r.last ++
        (match r.termination with
          | .count k => 0 :: (byte2 k ++ [0, 0])
          | .condition q => [1, 0, 0] ++ condition q)) ++
      (BitVec.ofNat 8 e.returns.length :: e.returns.flatMap fun r =>
        byte2 r.index ++ [BitVec.ofNat 8 r.depth]) ++
      (bit x.timer.running :: byte2 x.timer.count) ++
      [BitVec.ofNat 8 x.timer.tap.val, bit x.timer.expired, x.latches.trig.setWidth 8,
        bit x.latches.soft, BitVec.ofNat 8 e.policy.code, bit e.pauseRouting, bit x.timer.notify] ++
      (match e.fault with | some f => 1 :: faultBytes f | none => [0, 0, 0, 0, 0, 0, 0, 0, 0]))) ∧
    (∀ f, e.run = .faulted → e.fault = some f →
      exec (.clearFault tag (BitVec.ofNat 8 c.val)) s =
        .next ((s.setChan c x.stopped).withReply 0x3D tag (0x00 :: faultBytes f))) ∧
    (e.run ≠ .faulted →
      exec (.clearFault tag (BitVec.ofNat 8 c.val)) s = .next (s.withReply 0x3D tag [0x07])) ∧
    (∀ p r n, DamagePolicy.ofCode policy = some p → boolOfCode routing = some r →
      boolOfCode enable = some n →
      let line := s.pauseLine && r
      let set : Prop := e.requestPause = true ∨ line = true
      let becomes (run : RunState) : State := s.setChan c { x with
        engine := { e with policy := p, pauseRouting := r, linePause := line, run := run }
        timer := { x.timer with notify := n } }
      let answers (t : State) : Prop :=
        exec (.setPolicy tag (BitVec.ofNat 8 c.val) policy routing enable) s =
          .next (t.withReply 0x3E tag [0x00, policy, routing, enable])
      (e.run = .running → set → answers (becomes .paused)) ∧
      (e.run = .paused → ¬set →
        (e.held = true → answers (becomes .running)) ∧
        (e.held = false → ∃ t : State, (becomes .running).GoesOnTo c t ∧ answers t)) ∧
      (¬(e.run = .running ∧ set) → ¬(e.run = .paused ∧ ¬set) → answers (becomes e.run)))) ∧
  ([RunState.idle, .armed, .running, .paused, .faulted].map RunState.code = [0, 1, 2, 3, 4]) ∧
  (∀ p w, [Activity.between, .playing p, .holding p, .waiting w].map Activity.code = [0, 1, 2, 3]) ∧
  ([FaultCause.noImage, .damagedImage, .badLoopEnd, .loopOverflow, .badTarget, .returnOverflow,
    .returnEmpty, .windowEnd].map FaultCause.code = [0, 1, 2, 3, 4, 5, 6, 7]) ∧
  ([DamagePolicy.playAnyway, .skip, .fault].map DamagePolicy.code = [0, 1, 2]) ∧
  ([Operand.trig 0, .trig 1, .trig 2, .trig 3, .soft, .flag 0, .flag 1, .flag 2, .flag 3, .flag 4,
    .flag 5, .flag 6, .flag 7, .timer, .last, .always].map Operand.code =
      [0, 1, 2, 3, 4, 5, 6, 7, 8, 9, 10, 11, 12, 13, 14, 15])

/-! ### Steps of a program (chapter 5) -/

/-- The step kinds, each executed at the step index, where `faults`, `goesTo` and `advances` are a fault, a
jump and a sequential advance (R86); the sequential advance with its loop test (R93); the steps of one
event (R85); and what a fault leaves (R107). R88, R34: PLAY and its claim. R92: LOOP. R95: BRANCH. R96:
CALL. R97: RETURN. R98: WAIT. R99: TIMER. R100, R123: SIGNAL. R101: STOP. A test that is true with sense
NORMAL consumes the latch it reads (R116). The operand changes of one write are handed on in ascending
order, and the step that an event completes is not counted at it (the model's choices, log entries 7
and 16). In the last clause nothing stands handed to the channel before the operand change (log
entry 32). -/
def Obligations.CallsFaultsAndStops : Prop :=
  (∀ (c : Chan) (s : State),
     let e := s.engine c
     let o := s.output c
     let step := s.localStep c e.index
     let size := s.windowSize c
     let faults (cause : FaultCause) (handle : Option Nat) : Prop :=
       s.executeStep c = (s.faultChannel c cause handle, false)
     let tested (q : Condition) : State := if q.negated = true then s else s.consume c q.operand
     let isFalse (q : Condition) : Prop := s.operand c q.operand = q.negated
     let barred (x : Step) : Prop := x = .stop ∨ x = .ret ∨ (∃ t, x = .call t) ∨
       (∃ q t l, x = .branch q t l) ∨ ∃ n t, x = .loop n t
     let mark (level : Bool) (a : MarkerAction) : Bool :=
       match a with | .keep => level | .set => true | .clear => false
     (∀ handle count a1 a2 b1 b2 scale hold, step = .play handle count a1 a2 b1 b2 scale hold →
       ((s.handle handle.toNat).current = none → faults .noImage (some handle.toNat)) ∧
       (∀ i, (s.handle handle.toNat).current = some i →
         (∀ k n w, i.phase = .ready (.damaged k n) w →
           (e.policy = .fault → faults .damagedImage (some handle.toNat)) ∧
           (e.policy = .skip → s.executeStep c = s.advance c)) ∧
         ((∃ w, i.phase = .ready .good w) ∨
             (e.policy = .playAnyway ∧ ∃ k n w, i.phase = .ready (.damaged k n) w) →
           s.executeStep c =
             ((s.setHandle handle.toNat
                 ⟨some { i with refs := i.refs + 1 }, (s.handle handle.toNat).incoming⟩).setChan c
               { s.chan c with
                 engine := { e with activity := .playing {
                     serial := i.serial, firstPage := i.firstPage, pageCount := i.pageCount
                     sampleLength := i.sampleLength, handle := handle.toNat
                     passCount := count.toNat, scale := scale, hold := hold, aEnd := a2, bEnd := b2
                     pass := 1, holdPass := 0, position := 0 } }
                 output := { o with levelA := mark o.levelA a1, levelB := mark o.levelB b1 } },
               false)))) ∧
     (∀ last ending, step = .loop last ending →
       (last.toNat ≤ e.index ∨ size ≤ last.toNat ∨ barred (s.localStep c last.toNat) →
         faults .badLoopEnd none) ∧
       (e.index < last.toNat → last.toNat < size → ¬barred (s.localStep c last.toNat) →
         (6 ≤ e.loops.length → faults .loopOverflow none) ∧
         (e.loops.length < 6 → s.executeStep c =
           (s.setEngine c { e with
             loops := ⟨e.index + 1, last.toNat,
               (match ending with | .count n => .count n.toNat | .condition q => .condition q)⟩ ::
                 e.loops
             index := e.index + 1 }, true)))) ∧
     (∀ q target leave, step = .branch q target leave →
       (size ≤ target.toNat → faults .badTarget none) ∧
       (target.toNat < size → isFalse q → s.executeStep c = s.advance c) ∧
       (target.toNat < size → ¬isFalse q → s.executeStep c =
         ((tested q).setEngine c { e with
           loops := (if leave = true then e.loops.tail else e.loops)
           index := target.toNat }, true))) ∧
     (∀ target, step = .call target →
       (size ≤ target.toNat → faults .badTarget none) ∧
       (target.toNat < size → 4 ≤ e.returns.length → faults .returnOverflow none) ∧
       (target.toNat < size → e.returns.length < 4 → s.executeStep c =
         (s.setEngine c { e with
           returns := ⟨e.index + 1, e.loops.length⟩ :: e.returns
           index := target.toNat }, true))) ∧
     (step = .ret →
       (e.returns = [] → faults .returnEmpty none) ∧
       (∀ r rest, e.returns = r :: rest →
         (size ≤ r.index → faults .windowEnd none) ∧
         (r.index < size → s.executeStep c =
           (s.setEngine c { e with
             returns := rest, loops := e.loops.drop (e.loops.length - r.depth)
             index := r.index }, true)))) ∧
     (∀ q out, step = .wait q out →
       (isFalse q → s.executeStep c =
         (s.setEngine c { e with activity := .waiting ⟨q, out⟩ }, false)) ∧
       (¬isFalse q → s.executeStep c = (tested q).advance c)) ∧
     (∀ preset tap, step = .timer preset tap → s.executeStep c =
       (s.setTimer c { s.timer c with
         running := true, count := preset.toNat, tap := tap, expired := false }).advance c) ∧
     (∀ notify code, step = .signal none notify code → s.executeStep c =
       (if notify = true then s.notify (.signal c code) else s).advance c) ∧
     (∀ (n : Fin 8) a notify code, step = .signal (some (n, a)) notify code →
       ∃ f : BitVec 8,
         (∀ m : Fin 8, f.getLsbD m.val =
           if m = n then
             match a with | .set => true | .clear => false | .toggle => !s.flags.getLsbD n.val
           else s.flags.getLsbD m.val) ∧
         (let u : State := { s with
            flags := f
            handed := s.handed ++ (allChannels.filter fun d =>
              (s.engine d).standing.any fun q => match q.operand with
                | .flag m => (f ^^^ s.flags).getLsbD m.val
                | _ => false).map Instr.operandChange }
          s.executeStep c =
            (if notify = true then u.notify (.signal c code) else u).advance c)) ∧
     (step = .stop → s.playOf c = none → s.executeStep c =
       ((s.setChan c (s.chan c).stopped).notify (.runEnd c .completed e.index none), false))) ∧
  (∀ (c : Chan) (s : State),
     let e := s.engine c
     let goesTo (u : State) (k : Nat) : State × Bool :=
       if k < s.windowSize c then (u.setEngine c { u.engine c with index := k }, true)
       else (u.faultChannel c .windowEnd none, false)
     (e.loops = [] → s.advance c = goesTo s (e.index + 1)) ∧
     (∀ r rest, e.loops = r :: rest →
       (r.last ≠ e.index → s.advance c = goesTo s (e.index + 1)) ∧
       (∀ k, r.last = e.index → r.termination = .count k →
         (1 < k → s.advance c = goesTo (s.setEngine c { e with
           loops := { r with termination := .count (k - 1) } :: rest }) r.first) ∧
         (k ≤ 1 → s.advance c = (s.setEngine c { e with loops := rest }).advance c)) ∧
       (∀ q, r.last = e.index → r.termination = .condition q →
         (s.operand c q.operand = q.negated → s.advance c = goesTo s r.first) ∧
         (s.operand c q.operand ≠ q.negated → s.advance c =
           ((if q.negated = true then s else s.consume c q.operand).setEngine c
             { e with loops := rest }).advance c)))) ∧
  (∀ (c : Chan) (s : State),
     let begun := s.setEngine c { s.engine c with activity := .between, stepsAtEvent := 0 }
     s.stepEvent c = begun.takeSteps c 64 ∧
     ((begun.advance c).2 = true → s.advanceEvent c = (begun.advance c).1.takeSteps c 64) ∧
     ((begun.advance c).2 = false → s.advanceEvent c = (begun.advance c).1) ∧
     s.takeSteps c 0 = s ∧
     (∀ n u, s.executeStep c = (u, true) →
       s.takeSteps c (n + 1) = (u.setEngine c { u.engine c with
         stepsAtEvent := (u.engine c).stepsAtEvent + 1 }).takeSteps c n) ∧
     (∀ n u, s.executeStep c = (u, false) → s.takeSteps c (n + 1) = u)) ∧
  (∀ (c : Chan) (cause : FaultCause) (handle : Option Nat) (s : State), s.playOf c = none →
     let e := s.engine c
     let f : FaultRecord := ⟨cause, e.index, handle, e.loops.length, e.returns.length⟩
     s.faultChannel c cause handle =
       (s.setChan c { s.chan c with
         engine := { e with
           run := .faulted, activity := .between, held := false, requestPause := false
           stopPending := false, start := none, stepsAtEvent := 0, fault := some f }
         timer := { s.timer c with running := false }
         output := (s.chan c).stopped.output }).notify (.runEnd c .fault e.index (some f))) ∧
  (∀ (c : Chan) (s : State), s.inReset = false →
     s.signalsBefore c (.operandChange c) = [] → s.periodsBefore c (.operandChange c) = 0 →
     (s.engine c).run = .armed →
     (s.engine c).held = false → (s.engine c).start = some ⟨.soft, false⟩ →
     (s.latches c).soft = true → (s.engine c).requestPause = false →
     (s.engine c).linePause = false → s.localStep c (s.engine c).index = .stop →
     exec (.operandChange c) s = .next
       (((s.taken (.operandChange c)).setChan c (s.chan c).stopped).notify
         (.runEnd c .completed (s.engine c).index none)).transmit)

/-! ### Images and handles (chapters 1 and 2) -/

/-- R3, R4, R5, R16, R20: every answer of DEFINE IMAGE, and the image it creates: its serial is the first
value, counting upward from the counter and wrapping from 65535 to 1, that no live image has. -/
def Obligations.ImagesAreDefined : Prop :=
  ∀ (tag commit : Byte) (h : Half) (n : Quad) (s : State), s.open = true →
    (1023 < h.toNat ∨ boolOfCode commit = none ∨ n.toNat = 0 ∨ 8388608 < n.toNat →
      exec (.defineImage tag h n commit) s = .next (s.withReply 0x10 tag [0x05])) ∧
    (∀ flag, h.toNat ≤ 1023 → boolOfCode commit = some flag → 1 ≤ n.toNat → n.toNat ≤ 8388608 →
      ((s.handle h.toNat).incoming.isSome = true →
        exec (.defineImage tag h n commit) s = .next (s.withReply 0x10 tag [0x0A])) ∧
      ((s.handle h.toNat).incoming = none →
        allocate (s.guards.ranges .fence) ((n.toNat + 255) / 256) s.free = none →
        exec (.defineImage tag h n commit) s = .next (s.withReply 0x10 tag [0x08])) ∧
      (∀ p rest, (s.handle h.toNat).incoming = none →
        allocate (s.guards.ranges .fence) ((n.toNat + 255) / 256) s.free = some (p, rest) →
        1 ≤ s.serialCounter → s.serialCounter ≤ 65535 → s.liveImages.length < 65535 →
        ∃ (serial j : Nat) (t : State),
          exec (.defineImage tag h n commit) s =
            .next (t.withReply 0x10 tag (0x00 :: (byte2 serial ++ byte2 p))) ∧
          serial = (s.serialCounter - 1 + j) % 65535 + 1 ∧
          serial ∉ s.liveImages.map Image.serial ∧
          (∀ i, i < j → (s.serialCounter - 1 + i) % 65535 + 1 ∈ s.liveImages.map Image.serial) ∧
          t.handle h.toNat = ⟨(s.handle h.toNat).current,
            some ⟨s.imagesMade, serial, p, (n.toNat + 255) / 256, n.toNat, .requests,
              .loading flag [], 0⟩⟩ ∧
          (∀ k, k ≠ h.toNat → t.handle k = s.handle k) ∧
          t = { s with
            free := rest, handles := t.handles, imagesMade := s.imagesMade + 1
            serialCounter := if serial = 65535 then 1 else serial + 1 }))

/-- R13, R15, R16, R17: over a free extent list in its order, an extent of `n` pages is placed at the
lowest page from which `n` pages are free and outside every FENCE range, it alone leaves the list, and
there is none only where no page will do; an extent of no free page comes back and it alone joins the
list. The list keeps its order, with a gap between each entry and the next. -/
def Obligations.ExtentsArePlacedAndReturned : Prop :=
  ∀ (fences : List GuardRange) (n : Nat) (free : List Extent), 1 ≤ n → separated 0 free = true →
    (∀ r ∈ fences, r.first ≤ r.last) →
    let fits (p : Nat) : Prop := ∀ page, p ≤ page → page < p + n →
      (∃ e ∈ free, e.holds page = true) ∧ ∀ r ∈ fences, ¬(r.first ≤ page ∧ page ≤ r.last)
    (allocate fences n free = none → ∀ p, ¬fits p) ∧
    (∀ p rest, allocate fences n free = some (p, rest) →
      fits p ∧ (∀ q, fits q → p ≤ q) ∧ separated 0 rest = true ∧
      ∀ page, (∃ e ∈ rest, e.holds page = true) ↔
        (∃ e ∈ free, e.holds page = true) ∧ ¬(p ≤ page ∧ page < p + n)) ∧
    (∀ p, p + n ≤ 32768 → (∀ page, p ≤ page → page < p + n → ∀ e ∈ free, e.holds page = false) →
      separated 0 (giveBack ⟨p, n⟩ free) = true ∧
      ∀ page, (∃ e ∈ giveBack ⟨p, n⟩ free, e.holds page = true) ↔
        (∃ e ∈ free, e.holds page = true) ∨ (p ≤ page ∧ page < p + n))

/-- R2, R4, R10, R21, R8: WRITE PAGE stores the samples of the page, low byte first, with 0 at the fill
of the last page, and its check word; the page index joins the written-page set. Every other byte and
check word stays. A decay of a page (log entry 10) changes its bytes and nothing else; in standby, in
which every page keeps its contents (R1), there is none. -/
def Obligations.PagesAreWritten : Prop :=
  (∀ (tag : Byte) (h k : Half) (samples : List Half) (s : State), s.open = true →
    samples.length = 256 →
    (1023 < h.toNat →
      exec (.writePage tag h k samples) s = .next (s.withReply 0x11 tag [0x05])) ∧
    (h.toNat ≤ 1023 → (s.handle h.toNat).incoming = none →
      exec (.writePage tag h k samples) s = .next (s.withReply 0x11 tag [0x0B])) ∧
    (∀ i, h.toNat ≤ 1023 → (s.handle h.toNat).incoming = some i →
      ((∃ g c, i.phase = .ready g c) ∨ i.source = .imported →
        exec (.writePage tag h k samples) s = .next (s.withReply 0x11 tag [0x0C])) ∧
      (∀ commit written, i.phase = .loading commit written → i.source = .requests →
        (i.pageCount ≤ k.toNat →
          exec (.writePage tag h k samples) s = .next (s.withReply 0x11 tag [0x05])) ∧
        (k.toNat < i.pageCount →
          ∃ (w : List Nat) (t : State),
            exec (.writePage tag h k samples) s = .next (t.withReply 0x11 tag [0x00]) ∧
            (∀ a, t.storedByte a =
              if 512 * (i.firstPage + k.toNat) ≤ a ∧ a < 512 * (i.firstPage + k.toNat) + 512 then
                if k.toNat + 1 = i.pageCount ∧ 2 * (i.sampleLength - 256 * (i.pageCount - 1)) ≤
                    a - 512 * (i.firstPage + k.toNat) then 0
                else (samples.getD ((a - 512 * (i.firstPage + k.toNat)) / 2) 0).extractLsb'
                  (8 * (a % 2)) 8
              else s.storedByte a) ∧
            (∀ p, t.checkWord p = if p = i.firstPage + k.toNat then crc (t.pageBytes p)
              else s.checkWord p) ∧
            (∀ j, j ∈ w ↔ j = k.toNat ∨ j ∈ written) ∧
            t.handle h.toNat =
              ⟨(s.handle h.toNat).current, some { i with phase := .loading commit w }⟩ ∧
            (∀ j, j ≠ h.toNat → t.handle j = s.handle j) ∧
            t = { s with
              memory := t.memory, checkWords := t.checkWords, handles := t.handles })))) ∧
  (∀ (page : BitVec 15) (data : List Byte) (s : State), s.link.standby = true →
    exec (.pageDecay page data) s = .next s.transmit) ∧
  (∀ (page : BitVec 15) (data : List Byte) (s : State), s.link.standby = false → data.length = 512 →
    crc data ≠ s.checkWord page.toNat →
    ∃ t : State, exec (.pageDecay page data) s = .next t.transmit ∧
      (∀ a, t.storedByte a =
        if 512 * page.toNat ≤ a ∧ a < 512 * page.toNat + 512 then data.getD (a - 512 * page.toNat) 0
        else s.storedByte a) ∧
      t = { s with memory := t.memory })

/-- R6, R11, R22, R28: every answer of FINISH IMAGE for a handle in range: NO_INCOMING and NOT_LOADING; for
a LOADING image of fill source REQUESTS the lowest missing page; or the image READY and GOOD with its
summary check, and then the commit attempt where the flag asks for it, its outcome the second status; a
FREED notice of the attempt and the reply reach the transmitter in one event (the model's choice, log
entry 11). -/
def Obligations.ImagesAreFinished : Prop :=
  (∀ (tag : Byte) (h : Half) (s : State), s.open = true → h.toNat ≤ 1023 →
    ((s.handle h.toNat).incoming = none →
      exec (.finishImage tag h) s = .next (s.withReply 0x12 tag [0x0B])) ∧
    (∀ i, (s.handle h.toNat).incoming = some i →
      (∃ g c, i.phase = .ready g c) ∨ i.source = .imported →
      exec (.finishImage tag h) s = .next (s.withReply 0x12 tag [0x0C]))) ∧
  (∀ (tag : Byte) (h : Half) (i : Image) (commit : Bool) (written : List Nat) (s : State),
    s.open = true → h.toNat ≤ 1023 → (s.handle h.toNat).incoming = some i →
    i.phase = .loading commit written → i.source = .requests → written.Pairwise (· < ·) →
    (∀ k, k < i.pageCount → k ∉ written → (∀ j, j < k → j ∈ written) →
      exec (.finishImage tag h) s = .next (s.withReply 0x12 tag (0x0D :: byte2 k))) ∧
    ((∀ k, k < i.pageCount → k ∈ written) →
      let c := crc ((List.range i.pageCount).flatMap fun k => bytesOfHalf (s.checkWord (i.firstPage + k)))
      let r : Image := { i with phase := .ready .good c }
      let u := s.setHandle h.toNat ⟨(s.handle h.toNat).current, some r⟩
      (commit = false → exec (.finishImage tag h) s =
        .next (u.withReply 0x12 tag (0x00 :: (byte2 i.serial ++ bytesOfHalf c ++ [0, 0])))) ∧
      (∀ st, commit = true → u.commitAttempt h.toNat r = .error st →
        exec (.finishImage tag h) s =
          .next (u.withReply 0x12 tag (0x00 :: (byte2 i.serial ++ bytesOfHalf c ++ [1, st.code])))) ∧
      (∀ d t, commit = true → u.commitAttempt h.toNat r = .ok (d, t) →
        exec (.finishImage tag h) s =
          .next (t.withReply 0x12 tag (0x00 :: (byte2 i.serial ++ bytesOfHalf c ++ [1, 0]))))))

/-- R25, R26, R27, R41, R49: every answer of COMMIT: the refusals in their order, and the binding of the
incoming image, with the old current image freed at once or retired. An image is `kept` while some slot
holds a KEEP range that has one of its pages. A FREED notice and the reply reach the transmitter in one
event (the model's choice, log entry 11). -/
def Obligations.CommitBindsTheIncomingImage : Prop :=
  ∀ (tag : Byte) (h : Half) (s : State), s.open = true → h.toNat ≤ 1023 →
    let kept (i : Image) : Prop := ∃ (k : Fin 8) (r : GuardRange), s.guards.slots[k] = some r ∧
      r.mode = .keep ∧ r.first < i.firstPage + i.pageCount ∧ i.firstPage ≤ r.last
    ((s.handle h.toNat).incoming = none →
      exec (.commit tag h) s = .next (s.withReply 0x13 tag [0x0B])) ∧
    (∀ i c w, (s.handle h.toNat).incoming = some i → i.phase = .loading c w →
      exec (.commit tag h) s = .next (s.withReply 0x13 tag [0x0E])) ∧
    (∀ i g c, (s.handle h.toNat).incoming = some i → i.phase = .ready g c →
      let u := s.setHandle h.toNat ⟨some i, none⟩
      ((s.handle h.toNat).current = none →
        exec (.commit tag h) s =
          .next (u.withReply 0x13 tag (0x00 :: (byte2 i.serial ++ [0, 0, 0, 0])))) ∧
      (∀ old, (s.handle h.toNat).current = some old →
        (kept old → exec (.commit tag h) s = .next (s.withReply 0x13 tag [0x0F])) ∧
        (¬kept old → 0 < old.refs → 16 ≤ s.retired.length →
          exec (.commit tag h) s = .next (s.withReply 0x13 tag [0x11])) ∧
        (¬kept old → old.refs = 0 →
          exec (.commit tag h) s = .next
            ((({ u with free := giveBack ⟨old.firstPage, old.pageCount⟩ s.free }).notify
              (.freed old.serial h.toNat old.pageCount)).withReply 0x13 tag
              (0x00 :: (byte2 i.serial ++ [1] ++ byte2 old.serial ++ [0])))) ∧
        (∀ g' c', old.phase = .ready g' c' → ¬kept old → 0 < old.refs →
          s.retired.length < 16 →
          exec (.commit tag h) s = .next
            (({ u with retired := s.retired ++
              [RetiredEntry.mk h.toNat { old with phase := .retired g' c' }] }).withReply 0x13 tag
              (0x00 :: (byte2 i.serial ++ [1] ++ byte2 old.serial ++ [1]))))))

/-- R29 to R32, R180: DROP INCOMING, of an image that no import fills and of the one that the import
fills; RELEASE HANDLE, its refusals in their order, and a handle with a current image, with an incoming
one, and with both, the incoming one filled by the import in flight (`flag`) or not. Its notices and the
reply reach the transmitter in one event (the model's choice, log entry 11). -/
def Obligations.ImagesAreDroppedAndReleased : Prop :=
  ∀ (tag : Byte) (h : Half) (s : State), s.open = true → h.toNat ≤ 1023 →
    let kept (i : Image) : Prop := ∃ (k : Fin 8) (r : GuardRange), s.guards.slots[k] = some r ∧
      r.mode = .keep ∧ r.first < i.firstPage + i.pageCount ∧ i.firstPage ≤ r.last
    ((s.handle h.toNat).incoming = none →
      exec (.dropIncoming tag h) s = .next (s.withReply 0x14 tag [0x0B])) ∧
    (∀ i, (s.handle h.toNat).incoming = some i →
      (∀ r, s.importer.record = some r → r.handle ≠ h.toNat) →
      exec (.dropIncoming tag h) s = .next
        (({ s.setHandle h.toNat ⟨(s.handle h.toNat).current, none⟩ with
          free := giveBack ⟨i.firstPage, i.pageCount⟩ s.free }).withReply 0x14 tag
          (0x00 :: (byte2 i.serial ++ [0])))) ∧
    (∀ i r, (s.handle h.toNat).incoming = some i → s.importer.record = some r →
      r.handle = h.toNat →
      exec (.dropIncoming tag h) s = .next
        (({ (s.setHandle h.toNat ⟨(s.handle h.toNat).current, none⟩).notify
            (.importEnd h.toNat r.serial (.cancelled r.nextPage .drop)) with
          importer := { s.importer with record := none, reading := none }
          free := giveBack ⟨i.firstPage, i.pageCount⟩ s.free }).withReply 0x14 tag
          (0x00 :: (byte2 i.serial ++ [1])))) ∧
    (s.handle h.toNat = ⟨none, none⟩ →
      exec (.releaseHandle tag h) s = .next (s.withReply 0x15 tag [0x09])) ∧
    (∀ old, (s.handle h.toNat).current = some old → kept old →
      exec (.releaseHandle tag h) s = .next (s.withReply 0x15 tag [0x0F])) ∧
    (∀ old, (s.handle h.toNat).current = some old → ¬kept old → 0 < old.refs →
      16 ≤ s.retired.length →
      exec (.releaseHandle tag h) s = .next (s.withReply 0x15 tag [0x11])) ∧
    (∀ old, s.handle h.toNat = ⟨some old, none⟩ → ¬kept old → old.refs = 0 →
      exec (.releaseHandle tag h) s = .next
        ((({ s.setHandle h.toNat ⟨none, none⟩ with
          free := giveBack ⟨old.firstPage, old.pageCount⟩ s.free }).notify
          (.freed old.serial h.toNat old.pageCount)).withReply 0x15 tag
          ([0x00, 0, 0, 0, 0, 1] ++ byte2 old.serial ++ [0]))) ∧
    (∀ old g c, s.handle h.toNat = ⟨some old, none⟩ → old.phase = .ready g c → ¬kept old →
      0 < old.refs → s.retired.length < 16 →
      exec (.releaseHandle tag h) s = .next
        (({ s.setHandle h.toNat ⟨none, none⟩ with
          retired := s.retired ++ [RetiredEntry.mk h.toNat { old with phase := .retired g c }] }).withReply 0x15
          tag ([0x00, 0, 0, 0, 0, 1] ++ byte2 old.serial ++ [1]))) ∧
    (∀ (i : Image) (flag : Bool) (u : State), (s.handle h.toNat).incoming = some i →
      (flag = false ∧ (∀ r, s.importer.record = some r → r.handle ≠ h.toNat) ∧ u = s) ∨
        (flag = true ∧ ∃ r, s.importer.record = some r ∧ r.handle = h.toNat ∧
          u = { s.notify (.importEnd h.toNat r.serial (.cancelled r.nextPage .release)) with
            importer := { s.importer with record := none, reading := none } }) →
      let v : State := { u.setHandle h.toNat ⟨none, none⟩ with
        free := giveBack ⟨i.firstPage, i.pageCount⟩ s.free }
      let discarded : List Byte := [0x00, 1] ++ byte2 i.serial ++ [if flag then 1 else 0]
      ((s.handle h.toNat).current = none →
        exec (.releaseHandle tag h) s = .next (v.withReply 0x15 tag (discarded ++ [0, 0, 0, 0]))) ∧
      (∀ old, (s.handle h.toNat).current = some old → Sparse.rising s.handles = true → ¬kept old →
        (old.refs = 0 →
          exec (.releaseHandle tag h) s = .next
            ((({ v with free := giveBack ⟨old.firstPage, old.pageCount⟩ v.free }).notify
              (.freed old.serial h.toNat old.pageCount)).withReply 0x15 tag
              (discarded ++ [1] ++ byte2 old.serial ++ [0]))) ∧
        (∀ g c, old.phase = .ready g c → 0 < old.refs → s.retired.length < 16 →
          exec (.releaseHandle tag h) s = .next
            (({ v with retired := s.retired ++
              [RetiredEntry.mk h.toNat { old with phase := .retired g c }] }).withReply 0x15 tag
              (discarded ++ [1] ++ byte2 old.serial ++ [1])))))

/-- R42, R43, R54, R77, R130, R182, R194, R208: what the reading requests answer, field by field; none of
them changes anything but the reply slot. The lowest missing page of a written-page set, and the codes of
fill sources, image states, guard modes, lock levels and walk states (R206). The trigger latch mask is one
byte with TRIG0 in bit 0 (the model's reading, log entry 14). -/
def Obligations.ReadsReportTheState : Prop :=
  (∀ (tag count : Byte) (h n first : Half) (c : Chan) (s : State), s.open = true →
    let bit (b : Bool) : Byte := if b then 1 else 0
    let integrity (g : Integrity) : List Byte :=
      match g with | .good => [0, 0, 0, 0, 0] | .damaged k m => 1 :: (byte2 k ++ byte2 m)
    let image (i : Image) : List Byte :=
      byte2 i.serial ++ byte2 i.firstPage ++ byte2 i.pageCount ++ byte4 i.sampleLength ++
        [BitVec.ofNat 8 i.source.code, BitVec.ofNat 8 i.phase.code, BitVec.ofNat 8 i.refs] ++
        match i.phase with
        | .loading commit written =>
          bit commit :: (byte2 written.length ++ byte2 (lowestMissing 0 written) ++
            [0, 0, 0, 0, 0, 0, 0])
        | .ready g w | .retired g w => [0, 0, 0, 0, 0] ++ integrity g ++ bytesOfHalf w
    let retired (e : RetiredEntry) : List Byte :=
      byte2 e.image.serial ++ byte2 e.origin ++ byte2 e.image.firstPage ++
        byte2 e.image.pageCount ++ [BitVec.ofNat 8 e.image.refs] ++
        match e.image.phase with
        | .ready g w | .retired g w => integrity g ++ bytesOfHalf w
        | .loading _ _ => [0, 0, 0, 0, 0, 0, 0]
    (h.toNat ≤ 1023 →
      exec (.readHandle tag h) s = .next (s.withReply 0x16 tag (0x00 ::
        (optionalPart 25 ((s.handle h.toNat).current.map image) ++
          optionalPart 25 ((s.handle h.toNat).incoming.map image))))) ∧
    (n.toNat ≤ s.free.length →
      exec (.readMap tag n) s = .next (s.withReply 0x17 tag (0x00 ::
        (byte2 s.free.length ++ bytesOfHalf n ++
          countedList (((s.free.drop n.toNat).take 64).map fun e => byte2 e.first ++ byte2 e.count) ++
          countedList (s.retired.map retired) ++
          byte2 (s.free.map Extent.count).sum ++
          byte2 (s.liveImages.map Image.pageCount).sum)))) ∧
    (s.free.length < n.toNat →
      exec (.readMap tag n) s = .next (s.withReply 0x17 tag [0x05])) ∧
    exec (.readGuards tag) s = .next (s.withReply 0x1B tag (0x00 ::
      (s.guards.slots.toList.flatMap (fun slot => optionalPart 5 (slot.map fun r =>
          byte2 r.first ++ byte2 r.last ++ [BitVec.ofNat 8 r.mode.code])) ++
        [BitVec.ofNat 8 s.guards.level.code, bit s.guards.line]))) ∧
    exec (.readImport tag) s = .next (s.withReply 0x22 tag
      ([0x00, bit s.straps.libEn, bit s.importer.closed, bit s.importer.reading.isSome,
        bit s.importer.record.isSome] ++
        byte2 ((s.importer.record.map fun r => r.pageCount - r.nextPage).getD 0) ++
        optionalPart 17 (s.importer.record.map fun r =>
          byte2 r.handle ++ byte2 r.serial ++ byte4 r.flashAddress ++ byte4 r.sampleLength ++
            byte2 r.pageCount ++ byte2 r.nextPage ++ [bit r.commitOnFinish]))) ∧
    exec (.readWalk tag) s = .next (s.withReply 0x29 tag
      ([0x00, BitVec.ofNat 8 s.scanner.walk.code, BitVec.ofNat 8 s.scanner.interval,
        BitVec.ofNat 8 s.scanner.blockSize] ++ byte2 s.scanner.rangeStart ++
        byte2 s.scanner.rangeEnd ++ byte2 s.scanner.cursor ++ byte2 s.scanner.sweeps ++
        optionalPart 1 (s.scanner.intervalRemaining.map byte1) ++
        optionalPart 1 (s.scanner.blockRemaining.map byte1) ++
        optionalPart 2 (s.scanner.pageInRead.map fun r => byte2 r.page))) ∧
    exec (.readConditions tag) s = .next (s.withReply 0x43 tag ([0x00, s.flags] ++
      (s.lines.toList.flatMap fun l => [bit l.high, bit l.falling]) ++
      s.channels.toList.flatMap fun x =>
        [x.latches.routing.setWidth 8, x.latches.trig.setWidth 8, bit x.latches.soft,
          bit x.timer.expired])) ∧
    (count.toNat = 0 ∨ 128 < count.toNat →
      exec (.readSteps tag (BitVec.ofNat 8 c.val) first count) s =
        .next (s.withReply 0x32 tag [0x05])) ∧
    (1 ≤ count.toNat → count.toNat ≤ 128 → s.windowSize c < first.toNat + count.toNat →
      exec (.readSteps tag (BitVec.ofNat 8 c.val) first count) s =
        .next (s.withReply 0x32 tag [0x14])) ∧
    (1 ≤ count.toNat → count.toNat ≤ 128 → first.toNat + count.toNat ≤ s.windowSize c →
      exec (.readSteps tag (BitVec.ofNat 8 c.val) first count) s =
        .next (s.withReply 0x32 tag (0x00 ::
          (byte2 (s.windowStart c) ++ byte2 (s.windowSize c) ++ bytesOfHalf first ++ [count] ++
            (List.range count.toNat).flatMap fun k =>
              bytesOfRecord (s.stepAt (s.windowStart c + (first.toNat + k))).record))))) ∧
  (∀ (written : List Nat) (k : Nat), written.Pairwise (· < ·) → k ∉ written →
    (∀ j, j < k → j ∈ written) → lowestMissing 0 written = k) ∧
  ([FillSource.requests, .imported].map FillSource.code = [0, 1]) ∧
  (∀ b l g w, [ImagePhase.loading b l, .ready g w, .retired g w].map ImagePhase.code = [0, 1, 2]) ∧
  ([GuardMode.fence, .keep].map GuardMode.code = [0, 1]) ∧
  ([LockLevel.unlocked, .line, .frozen].map LockLevel.code = [0, 1, 2]) ∧
  ([WalkState.off, .on, .stopping].map WalkState.code = [0, 1, 2])

/-! ### Guard ranges (chapter 3) -/

/-- R50 to R53: SET GUARD, CLEAR GUARD and LOCK GUARDS. The replies of the first two carry the slot as it
stood before. -/
def Obligations.GuardRequests : Prop :=
  ∀ (tag mode code : Byte) (first last : Half) (slot : Fin 8) (s : State), s.open = true →
    let unlocked : Prop :=
      s.guards.level = .unlocked ∨ (s.guards.level = .line ∧ s.guards.line = true)
    let valid : Prop := first.toNat ≤ last.toNat ∧ last.toNat ≤ 32767
    let former : List Byte :=
      match s.guards.slots[slot] with
      | some r => 1 :: (byte2 r.first ++ byte2 r.last ++ [if r.mode = .keep then 1 else 0])
      | none => [0, 0, 0, 0, 0, 0]
    (¬valid ∨ GuardMode.ofCode mode = none →
      exec (.setGuard tag (BitVec.ofNat 8 slot.val) first last mode) s =
        .next (s.withReply 0x18 tag [0x05])) ∧
    (∀ m, valid → GuardMode.ofCode mode = some m → ¬unlocked →
      exec (.setGuard tag (BitVec.ofNat 8 slot.val) first last mode) s =
        .next (s.withReply 0x18 tag [0x10])) ∧
    (∀ m, valid → GuardMode.ofCode mode = some m → unlocked →
      exec (.setGuard tag (BitVec.ofNat 8 slot.val) first last mode) s =
        .next (({ s with guards := { s.guards with
          slots := s.guards.slots.set slot (some ⟨first.toNat, last.toNat, m⟩) } }).withReply 0x18 tag
            (0x00 :: former))) ∧
    (¬unlocked →
      exec (.clearGuard tag (BitVec.ofNat 8 slot.val)) s =
        .next (s.withReply 0x19 tag [0x10])) ∧
    (unlocked →
      exec (.clearGuard tag (BitVec.ofNat 8 slot.val)) s =
        .next (({ s with guards := { s.guards with
          slots := s.guards.slots.set slot none } }).withReply 0x19 tag (0x00 :: former))) ∧
    (2 < code.toNat → exec (.lockGuards tag code) s =
      .next (s.withReply 0x1A tag [0x05, BitVec.ofNat 8 s.guards.level.code])) ∧
    (∀ target, LockLevel.ofCode code = some target →
      (s.guards.level = .unlocked ∨ s.guards.level = target ∨
          (s.guards.level = .line ∧ (target = .frozen ∨ s.guards.line = true)) →
        exec (.lockGuards tag code) s =
          .next (({ s with guards := { s.guards with level := target } }).withReply 0x1A tag
            [0x00, code])) ∧
      (s.guards.level ≠ target →
        s.guards.level = .frozen ∨
          (s.guards.level = .line ∧ target = .unlocked ∧ s.guards.line = false) →
        exec (.lockGuards tag code) s =
          .next (s.withReply 0x1A tag [0x10, BitVec.ofNat 8 s.guards.level.code])))

/-! ### Library import (chapter 9) -/

/-- R172, R173, R175, R176: START IMPORT, its refusals in their order, and the import it begins, with the
read transaction for page index 0. -/
def Obligations.ImportsStart : Prop :=
  ∀ (tag commit : Byte) (h : Half) (a n : Quad) (s : State), s.open = true →
    let shut : Prop := s.straps.libEn = false ∨ s.importer.closed = true
    let bad : Prop := boolOfCode commit = none ∨ a.toNat % 2 = 1 ∨ 16777214 < a.toNat ∨ n.toNat = 0 ∨
      8388608 < n.toNat ∨ 16777216 < a.toNat + 2 * n.toNat
    (1023 < h.toNat →
      exec (.startImport tag h a n commit) s = .next (s.withReply 0x20 tag [0x05])) ∧
    (h.toNat ≤ 1023 → shut →
      exec (.startImport tag h a n commit) s = .next (s.withReply 0x20 tag [0x12])) ∧
    (h.toNat ≤ 1023 → ¬shut → s.importer.record.isSome = true →
      exec (.startImport tag h a n commit) s = .next (s.withReply 0x20 tag [0x06])) ∧
    (h.toNat ≤ 1023 → ¬shut → s.importer.record = none →
      (s.handle h.toNat).incoming.isSome = true →
      exec (.startImport tag h a n commit) s = .next (s.withReply 0x20 tag [0x0A])) ∧
    (h.toNat ≤ 1023 → ¬shut → s.importer.record = none → (s.handle h.toNat).incoming = none →
      (bad → exec (.startImport tag h a n commit) s = .next (s.withReply 0x20 tag [0x05])) ∧
      (¬bad → allocate (s.guards.ranges .fence) ((n.toNat + 255) / 256) s.free = none →
        exec (.startImport tag h a n commit) s = .next (s.withReply 0x20 tag [0x08])) ∧
      (∀ flag p rest, ¬bad → boolOfCode commit = some flag →
        allocate (s.guards.ranges .fence) ((n.toNat + 255) / 256) s.free = some (p, rest) →
        ∃ (serial : Nat) (t : State),
          exec (.startImport tag h a n commit) s =
            .next (t.withReply 0x20 tag (0x00 ::
              (byte2 serial ++ byte2 p ++ byte2 ((n.toNat + 255) / 256)))) ∧
          serial = freshSerial (s.liveImages.map Image.serial) s.liveImages.length s.serialCounter ∧
          t.handle h.toNat = ⟨(s.handle h.toNat).current,
            some ⟨s.imagesMade, serial, p, (n.toNat + 255) / 256, n.toNat, .imported,
              .loading flag [], 0⟩⟩ ∧
          (∀ k, k ≠ h.toNat → t.handle k = s.handle k) ∧
          t = { s with
            free := rest, handles := t.handles, imagesMade := s.imagesMade + 1
            serialCounter := serialAfter serial
            importer := { s.importer with
              record := some
                ⟨h.toNat, serial, a.toNat, n.toNat, (n.toNat + 255) / 256, 0, flag⟩
              reading := some ⟨s.importer.begun, a.toNat,
                if n.toNat ≤ 256 then 2 * n.toNat else 512⟩
              begun := s.importer.begun + 1 } }))

/-- R173, R177, R178, R179: a completed page read of the import in flight: the page is stored, and the next
read begins or the import completes, with commit on finish clear, and with it set, by the outcome of the
commit attempt. A completion that names another transaction changes nothing. A byte that is missing from
the data is read as FFh (the model's choice, log entry 20). -/
def Obligations.ImportPagesComplete : Prop :=
  ∀ (id : Nat) (data : List Byte) (r : ImportRecord) (x : Transaction) (i : Image) (commit : Bool)
    (w : List Nat) (s : State), s.inReset = false → s.importer.record = some r →
    s.importer.reading = some x → (s.handle r.handle).incoming = some i →
    i.phase = .loading commit w → i.pageCount = r.pageCount → i.sampleLength = r.sampleLength →
    (x.id ≠ id → exec (.importPageComplete id data) s = .next s.transmit) ∧
    (x.id = id →
      let last : Nat := r.sampleLength - 256 * (r.pageCount - 1)
      let stored : List Byte := (List.range 512).map fun o =>
        if r.nextPage + 1 = r.pageCount ∧ 2 * last ≤ o then 0 else data.getD o 0xFF
      let u : State := { s with
        memory := Memory.write s.memory (512 * (i.firstPage + r.nextPage)) stored
        checkWords := Sparse.put s.checkWords (i.firstPage + r.nextPage) (crc stored) }
      (r.nextPage + 1 < r.pageCount →
        ∃ w' : List Nat, (∀ j, j ∈ w' ↔ j = r.nextPage ∨ j ∈ w) ∧
          exec (.importPageComplete id data) s = .next
            ({ u.setHandle r.handle ⟨(s.handle r.handle).current,
                some { i with phase := .loading commit w' }⟩ with
              importer := { s.importer with
                record := some { r with nextPage := r.nextPage + 1 }
                reading := some ⟨s.importer.begun, r.flashAddress + 512 * (r.nextPage + 1),
                  if r.nextPage + 2 = r.pageCount then 2 * last else 512⟩
                begun := s.importer.begun + 1 } }).transmit) ∧
      (r.nextPage + 1 = r.pageCount →
        let c := crc ((List.range r.pageCount).flatMap fun k =>
          bytesOfHalf (u.checkWord (i.firstPage + k)))
        let ready : Image := { i with phase := .ready .good c }
        let idle : Importer := { s.importer with record := none, reading := none }
        let ended (t : State) (outcome : ImportOutcome) : Result :=
          .next (({ t with importer := idle }).notify
            (.importEnd r.handle r.serial outcome)).transmit
        ∃ t : State,
          t.handle r.handle = ⟨(s.handle r.handle).current, some ready⟩ ∧
          (∀ k, k ≠ r.handle → t.handle k = s.handle k) ∧
          t = { u with handles := t.handles } ∧
          (r.commitOnFinish = false →
            exec (.importPageComplete id data) s = ended t (.done c false)) ∧
          (r.commitOnFinish = true →
            (∀ st, t.commitAttempt r.handle ready = .error st →
              exec (.importPageComplete id data) s = ended t (.doneNotCommitted c st)) ∧
            (∀ d v, t.commitAttempt r.handle ready = .ok (d, v) →
              exec (.importPageComplete id data) s = ended v (.done c true)))))

/-- R172, R180, R181: CANCEL IMPORT and CLOSE LIBRARY, with no import in flight and with one. The IMPORT notice
and the reply reach the transmitter in one event (the model's choice, log entry 11). -/
def Obligations.ImportsAreCancelled : Prop :=
  ∀ (tag : Byte) (s : State), s.open = true →
    (s.importer.record = none →
      exec (.cancelImport tag) s = .next (s.withReply 0x21 tag [0x07])) ∧
    (s.straps.libEn = false →
      exec (.closeLibrary tag) s =
        .next (s.withReply 0x23 tag [0x00, 0, 0, 0, 0, 0, 0, 0])) ∧
    (s.straps.libEn = true → s.importer.record = none →
      exec (.closeLibrary tag) s =
        .next (({ s with importer := { s.importer with closed := true } }).withReply 0x23 tag
          [0x00, 0, 0, 0, 0, 0, 0, 0])) ∧
    (∀ r i, s.importer.record = some r → (s.handle r.handle).incoming = some i →
      let ended (cause : CancelCause) : State :=
        { (s.setHandle r.handle ⟨(s.handle r.handle).current, none⟩).notify
            (.importEnd r.handle r.serial (.cancelled r.nextPage cause)) with
          importer := { s.importer with record := none, reading := none }
          free := giveBack ⟨i.firstPage, i.pageCount⟩ s.free }
      exec (.cancelImport tag) s = .next ((ended .request).withReply 0x21 tag
        (0x00 :: (byte2 r.handle ++ byte2 r.serial ++ byte2 r.nextPage))) ∧
      (s.straps.libEn = true →
        exec (.closeLibrary tag) s = .next
          (({ ended .close with importer :=
              { s.importer with record := none, reading := none, closed := true } }).withReply 0x23
            tag ([0x00, 1] ++ byte2 r.handle ++ byte2 r.serial ++ byte2 r.nextPage))))

/-! ### The integrity scanner (chapter 10) -/

/-- R187: every answer of SET WALK; each carries the walk as it stands after the request: its state,
interval, block size, range and cursor. -/
def Obligations.WalksAreSet : Prop :=
  ∀ (tag enable interval blockSize : Byte) (first last : Half) (s : State), s.open = true →
    let bad : Prop := interval.toNat = 0 ∨ blockSize.toNat = 0 ∨ 128 < blockSize.toNat ∨
      32767 < last.toNat ∨ last.toNat < first.toNat
    let answered (st : Byte) (x : Scanner) : Result :=
      .next (({ s with scanner := x }).withReply 0x28 tag
        ([st, match x.walk with | .off => 0 | .on => 1 | .stopping => 2,
          BitVec.ofNat 8 x.interval, BitVec.ofNat 8 x.blockSize] ++ byte2 x.rangeStart ++
          byte2 x.rangeEnd ++ byte2 x.cursor))
    (1 < enable.toNat ∨ (enable = 1 ∧ bad) →
      exec (.setWalk tag enable interval blockSize first last) s = answered 0x05 s.scanner) ∧
    (enable = 1 → ¬bad → s.scanner.walk ≠ .off →
      exec (.setWalk tag enable interval blockSize first last) s = answered 0x06 s.scanner) ∧
    (enable = 1 → ¬bad → s.scanner.walk = .off → s.scanner.blockRemaining = none →
      exec (.setWalk tag enable interval blockSize first last) s = answered 0x00 { s.scanner with
        walk := .on, interval := interval.toNat, blockSize := blockSize.toNat
        rangeStart := first.toNat, rangeEnd := last.toNat, cursor := first.toNat, sweeps := 0
        intervalRemaining := some interval.toNat }) ∧
    (enable = 0 → s.scanner.walk = .on → s.scanner.blockRemaining = none →
      exec (.setWalk tag enable interval blockSize first last) s = answered 0x00 { s.scanner with
        walk := .off, intervalRemaining := none }) ∧
    (enable = 0 → s.scanner.walk = .on → s.scanner.blockRemaining.isSome = true →
      exec (.setWalk tag enable interval blockSize first last) s = answered 0x00 { s.scanner with
        walk := .stopping }) ∧
    (enable = 0 → s.scanner.walk ≠ .on →
      exec (.setWalk tag enable interval blockSize first last) s = answered 0x00 s.scanner)

/-- R188 to R190: the T3 event that brings the interval of a counting walk to 0 begins a block: the pages
that belong to no READY or RETIRED image are passed over, round the range, up to the first that does,
whose read begins, or to the end of the block, which begins the next interval. WALK_INTERVAL_EXPIRY is
that T3 event; for a walk that is not at its last count, and in a hold, where the count stands still, it
changes nothing (log entries 6 and 19). The clauses on T3 take one that the chain has handed on, with no
timer that counts T3; the others are those of `TapEventsAndTimerExpiry`. -/
def Obligations.BlocksBegin : Prop :=
  ∀ s : State, s.inReset = false →
    (s.scanner.walk = .on → s.scanner.suspended = false → s.scanner.blockRemaining = none →
      s.scanner.intervalRemaining = some 1 →
      exec .walkIntervalExpiry s = exec (.timeBaseTap 3) s ∧
      (s.clock.hold = true → exec .walkIntervalExpiry s = .next s.transmit) ∧
      (s.clock.hold = false → .timeBaseTap 3 ∈ s.handed → s.scanner.inRange →
        (∀ c : Chan, (s.timer c).running = true → (s.timer c).tap ≠ 3) →
        let begun (x : Scanner) : Result :=
          .next ({ s with handed := s.handed.erase (.timeBaseTap 3), scanner := x }).transmit
        (∀ (m : Nat) (i : Image), m < s.scanner.blockSize →
          (∀ j, j < m → s.toRead (s.scanner.after j).cursor = none) →
          s.toRead (s.scanner.after m).cursor = some i →
          exec (.timeBaseTap 3) s = begun { s.scanner.after m with
            intervalRemaining := none, blockRemaining := some (s.scanner.blockSize - m)
            pageInRead := some ⟨(s.scanner.after m).cursor, i.ident, s.scanner.begun⟩
            begun := s.scanner.begun + 1 }) ∧
        ((∀ j, j < s.scanner.blockSize → s.toRead (s.scanner.after j).cursor = none) →
          exec (.timeBaseTap 3) s = begun { s.scanner.after s.scanner.blockSize with
            intervalRemaining := some s.scanner.interval }))) ∧
    (s.scanner.walk ≠ .on ∨ s.scanner.suspended = true ∨ s.scanner.blockRemaining.isSome = true ∨
        (∀ n, s.scanner.intervalRemaining = some n → 1 < n) →
      exec .walkIntervalExpiry s = .next s.transmit)

/-- R189, R190, R191, R192: a completed read: dropped where the image record no longer owns the page, without
effect where the CRC agrees, and a mark where it does not, with a DAMAGE notice at an image's first, which
carries the handle whose current or incoming image it is, or the handle of origin of a RETIRED one, and
that role. Then the block goes on: pages that belong to no READY or RETIRED image are passed over, round
the range, up to the first that does, whose read begins, or to the end of the block, after which the next
interval begins in ON and the walk is OFF in STOPPING. A completion of another read changes nothing. The
bytes compared are those stored at the completion, and image records are told apart by the model's own
numbers (the model's choices, log entries 9 and 8). -/
def Obligations.ReadsAreCompared : Prop :=
  ∀ (id : Nat) (r : PageRead) (s : State), s.inReset = false → s.scanner.pageInRead = some r →
    (r.id ≠ id → exec (.scanReadComplete id) s = .next s.transmit) ∧
    (∀ left, r.id = id → s.scanner.blockRemaining = some left → 1 ≤ left → s.scanner.inRange →
      let x := s.scanner
      let goesOn (u : State) : Prop :=
        let answers (y : Scanner) : Prop :=
          exec (.scanReadComplete id) s = .next ({ u with scanner := y }).transmit
        (∀ (m : Nat) (i : Image), m + 1 < left →
          (∀ j, j < m → s.toRead (x.after (j + 1)).cursor = none) →
          s.toRead (x.after (m + 1)).cursor = some i →
          answers { x.after (m + 1) with
            blockRemaining := some (left - (m + 1))
            pageInRead := some ⟨(x.after (m + 1)).cursor, i.ident, x.begun⟩
            begun := x.begun + 1 }) ∧
        ((∀ j, j + 1 < left → s.toRead (x.after (j + 1)).cursor = none) →
          (x.walk = .on → answers { x.after left with
            pageInRead := none, blockRemaining := none, intervalRemaining := some x.interval }) ∧
          (x.walk = .stopping → answers { x.after left with
            pageInRead := none, blockRemaining := none, walk := .off }))
      ((∀ i, s.toRead r.page = some i → i.ident ≠ r.owner) ∨
          crc (s.pageBytes r.page) = s.checkWord r.page →
        goesOn s) ∧
      (∀ i, s.toRead r.page = some i → i.ident = r.owner →
        crc (s.pageBytes r.page) ≠ s.checkWord r.page →
        let marked := s.mapImages (Image.marked i.ident r.page)
        (i.damaged = true → goesOn marked) ∧
        (∀ h role, i.damaged = false → s.ReferencesWf →
          (match role with
            | .current => (s.handle h).current = some i
            | .incoming => (s.handle h).incoming = some i
            | .retired => ∃ e ∈ s.retired, e.image = i ∧ e.origin = h) →
          goesOn (marked.notify (.damage h i.serial role (r.page - i.firstPage) r.page))))) ∧
    (∀ (i : Image) (c : Half) (page k n : Nat),
      (i.phase = .ready .good c → Image.marked i.ident page i =
        { i with phase := .ready (.damaged (page - i.firstPage) 1) c }) ∧
      (i.phase = .retired .good c → Image.marked i.ident page i =
        { i with phase := .retired (.damaged (page - i.firstPage) 1) c }) ∧
      (i.phase = .ready (.damaged k n) c → Image.marked i.ident page i =
        { i with phase := .ready (.damaged k (min 32768 (n + 1))) c }) ∧
      (i.phase = .retired (.damaged k n) c → Image.marked i.ident page i =
        { i with phase := .retired (.damaged k (min 32768 (n + 1))) c }))

/-! ### The Step Store, conditions and outputs (chapters 4, 6 and 8) -/

/-- R60, R61, R74, R75: SET PARTITION and WRITE STEPS: the refusals in their order, the new windows, and
the records stored whole or, at the first that fails, not at all, with the reason of its first failing check
(`StepRecordsRoundTrip`). The width of the position in the RANGE reply of a failing record, one byte, and
the refusal of more records than a frame can carry are the model's choices (log entries 14 and 31). -/
def Obligations.StoreRequests : Prop :=
  ∀ (tag : Byte) (s : State), s.open = true →
    (∀ counts : List Byte, counts.length = 8 →
      ((∃ k ∈ counts, 64 < k.toNat) ∨ 64 < (counts.map BitVec.toNat).sum →
        exec (.setPartition tag counts) s =
          .next (s.withReply 0x30 tag (0x05 :: s.partition.toList.flatMap byte2))) ∧
      ((∀ k ∈ counts, k.toNat ≤ 64) → (counts.map BitVec.toNat).sum ≤ 64 →
        ((∃ c : Chan, (s.engine c).run.active = true) →
          exec (.setPartition tag counts) s =
            .next (s.withReply 0x30 tag (0x13 :: s.partition.toList.flatMap byte2))) ∧
        ((∀ c : Chan, (s.engine c).run.active = false) →
          ∃ t : State,
            exec (.setPartition tag counts) s =
              .next (t.withReply 0x30 tag (0x00 :: t.partition.toList.flatMap byte2)) ∧
            (∀ c : Chan, t.windowSize c = 64 * (counts.getD c.val 0).toNat) ∧
            t = { s with partition := t.partition }))) ∧
    (∀ (c : Chan) (first : Half) (count : Byte) (records : List (BitVec 64)),
      records.length = count.toNat →
      (count.toNat = 0 ∨ 128 < count.toNat →
        exec (.writeSteps tag (BitVec.ofNat 8 c.val) first count records) s =
          .next (s.withReply 0x31 tag [0x05])) ∧
      (1 ≤ count.toNat → count.toNat ≤ 128 →
        ((s.engine c).run.active = true →
          exec (.writeSteps tag (BitVec.ofNat 8 c.val) first count records) s =
            .next (s.withReply 0x31 tag [0x13])) ∧
        ((s.engine c).run.active = false → s.windowSize c < first.toNat + count.toNat →
          exec (.writeSteps tag (BitVec.ofNat 8 c.val) first count records) s =
            .next (s.withReply 0x31 tag [0x14])) ∧
        ((s.engine c).run.active = false → first.toNat + count.toNat ≤ s.windowSize c →
          (∀ k reason, k < count.toNat →
            (∀ j, j < k → ∃ x, checkRecord (records.getD j 0) = .ok x) →
            checkRecord (records.getD k 0) = .error reason →
            exec (.writeSteps tag (BitVec.ofNat 8 c.val) first count records) s =
              .next (s.withReply 0x31 tag ([0x05, BitVec.ofNat 8 k] ++ byte2 (first.toNat + k) ++
                [BitVec.ofNat 8 reason.code]))) ∧
          (∀ xs : List Step, xs.length = count.toNat → Sparse.rising s.steps = true →
            (∀ k, k < count.toNat → checkRecord (records.getD k 0) = .ok (xs.getD k .stop)) →
            ∃ t : State,
              exec (.writeSteps tag (BitVec.ofNat 8 c.val) first count records) s =
                .next (t.withReply 0x31 tag [0x00]) ∧
              (∀ k, t.stepAt k =
                if s.windowStart c + first.toNat ≤ k ∧
                    k < s.windowStart c + first.toNat + count.toNat then
                  xs.getD (k - (s.windowStart c + first.toNat)) .stop
                else s.stepAt k) ∧
              t = { s with steps := t.steps }))))

/-- R65, R66, R67, R75: a step written as its record and checked gives the step back, and a record that
passes the checks is the record of the step it gives, every unassigned bit zero. The checks of R75: what
fails each, over the bits of the record and the bits that the layout of its kind and form assigns to a
field; the reason of a record is that of the first check in the order of the table that it fails, and a
record that fails none passes. -/
def Obligations.StepRecordsRoundTrip : Prop :=
  (∀ x : Step, x.Wf → checkRecord x.record = .ok x) ∧
  (∀ (r : BitVec 64) (x : Step), checkRecord r = .ok x → x.record = r ∧ x.Wf) ∧
  ([StepReason.kind, .reserved, .count, .preset, .tap, .flag, .action, .condition].map
    StepReason.code = [1, 2, 3, 4, 5, 6, 7, 8]) ∧
  (∀ r : BitVec 64,
    let kind : Nat := (r.extractLsb' 0 4).toNat
    let bit (k : Nat) : Prop := r.getLsbD k = true
    let within (k first last : Nat) : Prop := first ≤ k ∧ k ≤ last
    let assigned (k : Nat) : Prop :=
      k ≤ 3 ∨
      (kind = 1 ∧ (k = 4 ∨ k = 5 ∨ within k 8 15 ∨ within k 16 25 ∨ (bit 5 ∧ within k 26 31) ∨
        within k 32 47 ∨ (bit 4 ∧ within k 48 63))) ∨
      (kind = 2 ∧ (k = 4 ∨ (bit 4 ∧ within k 8 13) ∨ within k 16 27 ∨ (¬bit 4 ∧ within k 32 47))) ∨
      (kind = 3 ∧ (k = 4 ∨ within k 8 13 ∨ within k 16 27)) ∨
      (kind = 4 ∧ within k 16 27) ∨
      (kind = 6 ∧ (k = 4 ∨ within k 8 13)) ∨
      (kind = 7 ∧ (within k 8 15 ∨ within k 32 47)) ∨
      (kind = 8 ∧ (k = 4 ∨ k = 5 ∨ (bit 4 ∧ within k 8 23) ∨ within k 24 31))
    let fails (reason : StepReason) : Prop :=
      match reason with
      | .kind => 9 ≤ kind
      | .reserved => ∃ k, k < 64 ∧ bit k ∧ ¬assigned k
      | .count => (kind = 1 ∨ (kind = 2 ∧ ¬bit 4)) ∧ r.extractLsb' 32 16 = 0
      | .preset => kind = 7 ∧ r.extractLsb' 32 16 = 0
      | .tap => kind = 7 ∧ 7 < (r.extractLsb' 8 8).toNat
      | .flag => kind = 8 ∧ bit 4 ∧ 7 < (r.extractLsb' 8 8).toNat
      | .action =>
        (kind = 1 ∧ (r.extractLsb' 8 2 = 3 ∨ r.extractLsb' 10 2 = 3 ∨ r.extractLsb' 12 2 = 3 ∨
          r.extractLsb' 14 2 = 3)) ∨
        (kind = 8 ∧ bit 4 ∧ 2 < (r.extractLsb' 16 8).toNat)
      | .condition =>
        (kind = 1 ∧ bit 5 ∧ 15 < (r.extractLsb' 26 5).toNat) ∨
        (((kind = 2 ∧ bit 4) ∨ kind = 3 ∨ kind = 6) ∧ 15 < (r.extractLsb' 8 5).toNat)
    (∀ reason, fails reason → (∀ other, other.code < reason.code → ¬fails other) →
      checkRecord r = .error reason) ∧
    ((∀ reason, ¬fails reason) → ∃ x, checkRecord r = .ok x))

/-- R120, R121, R123, R124, R125: SET FLAGS writes the flags as one write and hands an operand change to
the channels whose standing test reads a flag that changed; FIRE TRIGGER sets the software latches of
the named channels that are active; SET ROUTE replaces a routing, and the edges where they are given, or is
refused for a routing above 15, a presence byte above 1, or an edge that is present and names none. The
order in which the changes are handed on is the model's choice (log entries 3 and 7). -/
def Obligations.ConditionRequests : Prop :=
  ∀ (tag x y z : Byte) (c : Chan) (routing : Byte) (e : Vector Bool 4) (s : State), s.open = true →
    ((x &&& y) ||| (x &&& z) ||| (y &&& z) ≠ 0 →
      exec (.setFlags tag x y z) s = .next (s.withReply 0x40 tag [0x05])) ∧
    ((x &&& y) ||| (x &&& z) ||| (y &&& z) = 0 →
      ∃ t : State,
        exec (.setFlags tag x y z) s =
          .next (t.withReply 0x40 tag [0x00, t.flags, t.flags ^^^ s.flags]) ∧
        (∀ n : Fin 8, t.flags.getLsbD n.val =
          if x.getLsbD n.val then true else if y.getLsbD n.val then false
          else if z.getLsbD n.val then !s.flags.getLsbD n.val else s.flags.getLsbD n.val) ∧
        t.handed = s.handed ++ (allChannels.filter fun d =>
          (s.engine d).standing.any fun q => match q.operand with
            | .flag n => (t.flags ^^^ s.flags).getLsbD n.val
            | _ => false).map Instr.operandChange ∧
        t = { s with flags := t.flags, handed := t.handed }) ∧
    (exec (.fireTrigger tag 0) s = .next (s.withReply 0x41 tag [0x05])) ∧
    (x ≠ 0 →
      ∃ t : State,
        exec (.fireTrigger tag x) s = .next (t.withReply 0x41 tag
          [0x00, maskOf fun d => x.getLsbD d.val && (s.engine d).run.active]) ∧
        (∀ d : Chan, t.chan d =
          if x.getLsbD d.val = true ∧ (s.engine d).run.active = true then
            { s.chan d with latches := { s.latches d with soft := true } }
          else s.chan d) ∧
        t.handed = s.handed ++ (allChannels.filter fun d =>
          x.getLsbD d.val && (s.engine d).run.active &&
            (s.engine d).standing.any fun q => q.operand == .soft).map Instr.operandChange ∧
        t = { s with channels := t.channels, handed := t.handed }) ∧
    (routing.toNat < 16 →
      exec (.setRoute tag (BitVec.ofNat 8 c.val) routing 0 [x, y, z, tag]) s = .next
        ((s.setLatches c { s.latches c with routing := routing.setWidth 4 }).withReply 0x42 tag
          ([0x00, routing] ++ s.lines.toList.flatMap fun l => [if l.falling then 1 else 0])) ∧
      exec (.setRoute tag (BitVec.ofNat 8 c.val) routing 1
          [if e[0] then 1 else 0, if e[1] then 1 else 0, if e[2] then 1 else 0,
            if e[3] then 1 else 0]) s = .next
        (({ s.setLatches c { s.latches c with routing := routing.setWidth 4 } with
          lines := #v[⟨s.lines[0].high, e[0]⟩, ⟨s.lines[1].high, e[1]⟩, ⟨s.lines[2].high, e[2]⟩,
            ⟨s.lines[3].high, e[3]⟩] }).withReply 0x42 tag
          [0x00, routing, if e[0] then 1 else 0, if e[1] then 1 else 0, if e[2] then 1 else 0,
            if e[3] then 1 else 0])) ∧
    (∀ (present : Byte) (edges : List Byte), edges.length = 4 →
      16 ≤ routing.toNat ∨ 1 < present.toNat ∨ (present = 1 ∧ ∃ k ∈ edges, 1 < k.toNat) →
      exec (.setRoute tag (BitVec.ofNat 8 c.val) routing present edges) s =
        .next (s.withReply 0x42 tag [0x05]))

/-- R168, R169, R208: SET OUTPUT holds its eight settings as the channel's pending record, or is refused;
READ OUTPUT reports the settings in force, those pending, the port, the markers and the enable line field
by field, and clears the clipped indicator. A played code that a hold carries is reported CARRIED, one of
a PAUSED channel PLAYED until its next sample period (the model's choices, log entries 15 and 28). -/
def Obligations.OutputRequests : Prop :=
  ∀ (tag e a b : Byte) (g : OutputSettings) (c : Chan) (s : State), s.open = true →
    let bit (b : Bool) : Byte := if b then 1 else 0
    let settings (g : OutputSettings) : List Byte :=
      bytesOfHalf g.gain ++ bytesOfHalf g.offset ++ bytesOfHalf g.clampLow ++
        bytesOfHalf g.clampHigh ++ bytesOfHalf g.rest ++ [bit g.enable, bit g.invertA, bit g.invertB]
    let o := s.output c
    (boolOfCode e = some g.enable → boolOfCode a = some g.invertA → boolOfCode b = some g.invertB →
      (g.clampLow.toInt ≤ g.rest.toInt → g.rest.toInt ≤ g.clampHigh.toInt →
        exec (.setOutput tag (BitVec.ofNat 8 c.val) g.gain g.offset g.clampLow g.clampHigh g.rest
            e a b) s =
          .next ((s.setOutput c { o with pending := some g }).withReply 0x50 tag
            (0x00 :: settings g))) ∧
      (g.rest.toInt < g.clampLow.toInt ∨ g.clampHigh.toInt < g.rest.toInt →
        exec (.setOutput tag (BitVec.ofNat 8 c.val) g.gain g.offset g.clampLow g.clampHigh g.rest
            e a b) s =
          .next (s.withReply 0x50 tag [0x05]))) ∧
    (boolOfCode e = none ∨ boolOfCode a = none ∨ boolOfCode b = none →
      exec (.setOutput tag (BitVec.ofNat 8 c.val) g.gain g.offset g.clampLow g.clampHigh g.rest
          e a b) s =
        .next (s.withReply 0x50 tag [0x05])) ∧
    exec (.readOutput tag (BitVec.ofNat 8 c.val)) s =
      .next ((s.setOutput c { o with clipped := false }).withReply 0x51 tag
        (0x00 :: (settings o.inForce ++ optionalPart 13 (o.pending.map settings) ++
          bytesOfHalf o.port ++
          [if o.portKind = .rest then 2
            else if o.portKind = .carried ∨ (s.engine c).held = true then 1 else 0,
            bit o.levelA, bit o.levelB, bit o.lineA, bit o.lineB, bit o.inForce.enable,
            bit o.clipped])))

/-! ### Invariants that every step keeps -/

/-- The invariants of the part hold in the state after power-on reset. -/
def Obligations.ResetMeetsEveryInvariant : Prop :=
  State.reset.PagesWf ∧ State.reset.ClockWf ∧ State.reset.link.Wf ∧ State.reset.StoreWf ∧
    State.reset.ScannerWf ∧ State.reset.ChannelsWf ∧ State.reset.ReferencesWf

/-- R13, R14, R23, R37, R174: every page of sample memory belongs to exactly one free extent or live
image, after every step as before it. -/
def Obligations.EveryPageHasOneOwner : Prop :=
  ∀ s t : State, s.PagesWf → step s = .next t → t.PagesWf

/-- R5, R36: live images stay records of their own (the model's numbers of them, log entry 8) and keep
serials of their own, and every reference count is the number of channels
whose PLAY step took a reference to the image. -/
def Obligations.ReferenceCountsAreExact : Prop :=
  ∀ s t : State, s.PagesWf → s.ChannelsWf → s.ReferencesWf → step s = .next t → t.ReferencesWf

/-- R79, R105, R106, R133, R148, R151, R159, R168: what the state of a channel says of itself stays
true. -/
def Obligations.ChannelsStayWellFormed : Prop :=
  ∀ s t : State, s.StoreWf → s.ChannelsWf → step s = .next t → t.ChannelsWf

/-- R133, R136 to R141, R156: state, source, lock status, hold and lock timeout keep agreeing, and the
clock is in its reset state while the RESET line is asserted. -/
def Obligations.TheClockAgreesWithItself : Prop :=
  ∀ s t : State, s.ClockWf → step s = .next t → t.ClockWf

/-- R201, R202, R203, R209: the queues stay within their places, and the transmitter is not free while a
frame waits. That the link reply list stays within its 150 places rests on what the model does with a
reply past them (log entry 12). -/
def Obligations.LinkQueuesStayBounded : Prop :=
  ∀ s t : State, s.link.Wf → step s = .next t → t.link.Wf

/-- R58, R60, R75: the windows stay whole units within the store, and every position holds a checked
step. -/
def Obligations.StoredStepsStayChecked : Prop :=
  ∀ s t : State, s.StoreWf → step s = .next t → t.StoreWf

/-- R186, R197: what the state of the scanner says of itself stays true; it is suspended exactly in
standby. -/
def Obligations.TheWalkStaysWellFormed : Prop :=
  ∀ s t : State, s.ScannerWf → step s = .next t → t.ScannerWf
end

