-- ==== Sys2Proof/Laws/State.lean ====
section
/-!
SUPPORT. The fields of State under each update, true by unfolding the update once: what an update writes,
and that it leaves every other field as it was.
-/
namespace Sys2Proof.Machine

variable (s : State)

/-! ### setChan -/

@[simp] theorem State.setChan_pending (c : Chan) (x : Channel) : (s.setChan c x).pending = s.pending := rfl
@[simp] theorem State.setChan_handed (c : Chan) (x : Channel) : (s.setChan c x).handed = s.handed := rfl
@[simp] theorem State.setChan_inReset (c : Chan) (x : Channel) : (s.setChan c x).inReset = s.inReset := rfl
@[simp] theorem State.setChan_straps (c : Chan) (x : Channel) : (s.setChan c x).straps = s.straps := rfl
@[simp] theorem State.setChan_link (c : Chan) (x : Channel) : (s.setChan c x).link = s.link := rfl
@[simp] theorem State.setChan_handles (c : Chan) (x : Channel) : (s.setChan c x).handles = s.handles := rfl
@[simp] theorem State.setChan_retired (c : Chan) (x : Channel) : (s.setChan c x).retired = s.retired := rfl
@[simp] theorem State.setChan_serialCounter (c : Chan) (x : Channel) : (s.setChan c x).serialCounter = s.serialCounter := rfl
@[simp] theorem State.setChan_imagesMade (c : Chan) (x : Channel) : (s.setChan c x).imagesMade = s.imagesMade := rfl
@[simp] theorem State.setChan_free (c : Chan) (x : Channel) : (s.setChan c x).free = s.free := rfl
@[simp] theorem State.setChan_memory (c : Chan) (x : Channel) : (s.setChan c x).memory = s.memory := rfl
@[simp] theorem State.setChan_checkWords (c : Chan) (x : Channel) : (s.setChan c x).checkWords = s.checkWords := rfl
@[simp] theorem State.setChan_powerOns (c : Chan) (x : Channel) : (s.setChan c x).powerOns = s.powerOns := rfl
@[simp] theorem State.setChan_selfRefresh (c : Chan) (x : Channel) : (s.setChan c x).selfRefresh = s.selfRefresh := rfl
@[simp] theorem State.setChan_guards (c : Chan) (x : Channel) : (s.setChan c x).guards = s.guards := rfl
@[simp] theorem State.setChan_importer (c : Chan) (x : Channel) : (s.setChan c x).importer = s.importer := rfl
@[simp] theorem State.setChan_scanner (c : Chan) (x : Channel) : (s.setChan c x).scanner = s.scanner := rfl
@[simp] theorem State.setChan_steps (c : Chan) (x : Channel) : (s.setChan c x).steps = s.steps := rfl
@[simp] theorem State.setChan_partition (c : Chan) (x : Channel) : (s.setChan c x).partition = s.partition := rfl
@[simp] theorem State.setChan_channels (c : Chan) (x : Channel) : (s.setChan c x).channels = s.channels.set c x := rfl
@[simp] theorem State.setChan_flags (c : Chan) (x : Channel) : (s.setChan c x).flags = s.flags := rfl
@[simp] theorem State.setChan_lines (c : Chan) (x : Channel) : (s.setChan c x).lines = s.lines := rfl
@[simp] theorem State.setChan_pauseLine (c : Chan) (x : Channel) : (s.setChan c x).pauseLine = s.pauseLine := rfl
@[simp] theorem State.setChan_clock (c : Chan) (x : Channel) : (s.setChan c x).clock = s.clock := rfl

/-! ### setEngine -/

@[simp] theorem State.setEngine_pending (c : Chan) (e : Engine) : (s.setEngine c e).pending = s.pending := rfl
@[simp] theorem State.setEngine_handed (c : Chan) (e : Engine) : (s.setEngine c e).handed = s.handed := rfl
@[simp] theorem State.setEngine_inReset (c : Chan) (e : Engine) : (s.setEngine c e).inReset = s.inReset := rfl
@[simp] theorem State.setEngine_straps (c : Chan) (e : Engine) : (s.setEngine c e).straps = s.straps := rfl
@[simp] theorem State.setEngine_link (c : Chan) (e : Engine) : (s.setEngine c e).link = s.link := rfl
@[simp] theorem State.setEngine_handles (c : Chan) (e : Engine) : (s.setEngine c e).handles = s.handles := rfl
@[simp] theorem State.setEngine_retired (c : Chan) (e : Engine) : (s.setEngine c e).retired = s.retired := rfl
@[simp] theorem State.setEngine_serialCounter (c : Chan) (e : Engine) : (s.setEngine c e).serialCounter = s.serialCounter := rfl
@[simp] theorem State.setEngine_imagesMade (c : Chan) (e : Engine) : (s.setEngine c e).imagesMade = s.imagesMade := rfl
@[simp] theorem State.setEngine_free (c : Chan) (e : Engine) : (s.setEngine c e).free = s.free := rfl
@[simp] theorem State.setEngine_memory (c : Chan) (e : Engine) : (s.setEngine c e).memory = s.memory := rfl
@[simp] theorem State.setEngine_checkWords (c : Chan) (e : Engine) : (s.setEngine c e).checkWords = s.checkWords := rfl
@[simp] theorem State.setEngine_powerOns (c : Chan) (e : Engine) : (s.setEngine c e).powerOns = s.powerOns := rfl
@[simp] theorem State.setEngine_selfRefresh (c : Chan) (e : Engine) : (s.setEngine c e).selfRefresh = s.selfRefresh := rfl
@[simp] theorem State.setEngine_guards (c : Chan) (e : Engine) : (s.setEngine c e).guards = s.guards := rfl
@[simp] theorem State.setEngine_importer (c : Chan) (e : Engine) : (s.setEngine c e).importer = s.importer := rfl
@[simp] theorem State.setEngine_scanner (c : Chan) (e : Engine) : (s.setEngine c e).scanner = s.scanner := rfl
@[simp] theorem State.setEngine_steps (c : Chan) (e : Engine) : (s.setEngine c e).steps = s.steps := rfl
@[simp] theorem State.setEngine_partition (c : Chan) (e : Engine) : (s.setEngine c e).partition = s.partition := rfl
@[simp] theorem State.setEngine_flags (c : Chan) (e : Engine) : (s.setEngine c e).flags = s.flags := rfl
@[simp] theorem State.setEngine_lines (c : Chan) (e : Engine) : (s.setEngine c e).lines = s.lines := rfl
@[simp] theorem State.setEngine_pauseLine (c : Chan) (e : Engine) : (s.setEngine c e).pauseLine = s.pauseLine := rfl
@[simp] theorem State.setEngine_clock (c : Chan) (e : Engine) : (s.setEngine c e).clock = s.clock := rfl

/-! ### setTimer -/

@[simp] theorem State.setTimer_pending (c : Chan) (t : Timer) : (s.setTimer c t).pending = s.pending := rfl
@[simp] theorem State.setTimer_handed (c : Chan) (t : Timer) : (s.setTimer c t).handed = s.handed := rfl
@[simp] theorem State.setTimer_inReset (c : Chan) (t : Timer) : (s.setTimer c t).inReset = s.inReset := rfl
@[simp] theorem State.setTimer_straps (c : Chan) (t : Timer) : (s.setTimer c t).straps = s.straps := rfl
@[simp] theorem State.setTimer_link (c : Chan) (t : Timer) : (s.setTimer c t).link = s.link := rfl
@[simp] theorem State.setTimer_handles (c : Chan) (t : Timer) : (s.setTimer c t).handles = s.handles := rfl
@[simp] theorem State.setTimer_retired (c : Chan) (t : Timer) : (s.setTimer c t).retired = s.retired := rfl
@[simp] theorem State.setTimer_serialCounter (c : Chan) (t : Timer) : (s.setTimer c t).serialCounter = s.serialCounter := rfl
@[simp] theorem State.setTimer_imagesMade (c : Chan) (t : Timer) : (s.setTimer c t).imagesMade = s.imagesMade := rfl
@[simp] theorem State.setTimer_free (c : Chan) (t : Timer) : (s.setTimer c t).free = s.free := rfl
@[simp] theorem State.setTimer_memory (c : Chan) (t : Timer) : (s.setTimer c t).memory = s.memory := rfl
@[simp] theorem State.setTimer_checkWords (c : Chan) (t : Timer) : (s.setTimer c t).checkWords = s.checkWords := rfl
@[simp] theorem State.setTimer_powerOns (c : Chan) (t : Timer) : (s.setTimer c t).powerOns = s.powerOns := rfl
@[simp] theorem State.setTimer_selfRefresh (c : Chan) (t : Timer) : (s.setTimer c t).selfRefresh = s.selfRefresh := rfl
@[simp] theorem State.setTimer_guards (c : Chan) (t : Timer) : (s.setTimer c t).guards = s.guards := rfl
@[simp] theorem State.setTimer_importer (c : Chan) (t : Timer) : (s.setTimer c t).importer = s.importer := rfl
@[simp] theorem State.setTimer_scanner (c : Chan) (t : Timer) : (s.setTimer c t).scanner = s.scanner := rfl
@[simp] theorem State.setTimer_steps (c : Chan) (t : Timer) : (s.setTimer c t).steps = s.steps := rfl
@[simp] theorem State.setTimer_partition (c : Chan) (t : Timer) : (s.setTimer c t).partition = s.partition := rfl
@[simp] theorem State.setTimer_flags (c : Chan) (t : Timer) : (s.setTimer c t).flags = s.flags := rfl
@[simp] theorem State.setTimer_lines (c : Chan) (t : Timer) : (s.setTimer c t).lines = s.lines := rfl
@[simp] theorem State.setTimer_pauseLine (c : Chan) (t : Timer) : (s.setTimer c t).pauseLine = s.pauseLine := rfl
@[simp] theorem State.setTimer_clock (c : Chan) (t : Timer) : (s.setTimer c t).clock = s.clock := rfl

/-! ### setLatches -/

@[simp] theorem State.setLatches_pending (c : Chan) (l : Latches) : (s.setLatches c l).pending = s.pending := rfl
@[simp] theorem State.setLatches_handed (c : Chan) (l : Latches) : (s.setLatches c l).handed = s.handed := rfl
@[simp] theorem State.setLatches_inReset (c : Chan) (l : Latches) : (s.setLatches c l).inReset = s.inReset := rfl
@[simp] theorem State.setLatches_straps (c : Chan) (l : Latches) : (s.setLatches c l).straps = s.straps := rfl
@[simp] theorem State.setLatches_link (c : Chan) (l : Latches) : (s.setLatches c l).link = s.link := rfl
@[simp] theorem State.setLatches_handles (c : Chan) (l : Latches) : (s.setLatches c l).handles = s.handles := rfl
@[simp] theorem State.setLatches_retired (c : Chan) (l : Latches) : (s.setLatches c l).retired = s.retired := rfl
@[simp] theorem State.setLatches_serialCounter (c : Chan) (l : Latches) : (s.setLatches c l).serialCounter = s.serialCounter := rfl
@[simp] theorem State.setLatches_imagesMade (c : Chan) (l : Latches) : (s.setLatches c l).imagesMade = s.imagesMade := rfl
@[simp] theorem State.setLatches_free (c : Chan) (l : Latches) : (s.setLatches c l).free = s.free := rfl
@[simp] theorem State.setLatches_memory (c : Chan) (l : Latches) : (s.setLatches c l).memory = s.memory := rfl
@[simp] theorem State.setLatches_checkWords (c : Chan) (l : Latches) : (s.setLatches c l).checkWords = s.checkWords := rfl
@[simp] theorem State.setLatches_powerOns (c : Chan) (l : Latches) : (s.setLatches c l).powerOns = s.powerOns := rfl
@[simp] theorem State.setLatches_selfRefresh (c : Chan) (l : Latches) : (s.setLatches c l).selfRefresh = s.selfRefresh := rfl
@[simp] theorem State.setLatches_guards (c : Chan) (l : Latches) : (s.setLatches c l).guards = s.guards := rfl
@[simp] theorem State.setLatches_importer (c : Chan) (l : Latches) : (s.setLatches c l).importer = s.importer := rfl
@[simp] theorem State.setLatches_scanner (c : Chan) (l : Latches) : (s.setLatches c l).scanner = s.scanner := rfl
@[simp] theorem State.setLatches_steps (c : Chan) (l : Latches) : (s.setLatches c l).steps = s.steps := rfl
@[simp] theorem State.setLatches_partition (c : Chan) (l : Latches) : (s.setLatches c l).partition = s.partition := rfl
@[simp] theorem State.setLatches_flags (c : Chan) (l : Latches) : (s.setLatches c l).flags = s.flags := rfl
@[simp] theorem State.setLatches_lines (c : Chan) (l : Latches) : (s.setLatches c l).lines = s.lines := rfl
@[simp] theorem State.setLatches_pauseLine (c : Chan) (l : Latches) : (s.setLatches c l).pauseLine = s.pauseLine := rfl
@[simp] theorem State.setLatches_clock (c : Chan) (l : Latches) : (s.setLatches c l).clock = s.clock := rfl

/-! ### setRate -/

@[simp] theorem State.setRate_pending (c : Chan) (r : Rate) : (s.setRate c r).pending = s.pending := rfl
@[simp] theorem State.setRate_handed (c : Chan) (r : Rate) : (s.setRate c r).handed = s.handed := rfl
@[simp] theorem State.setRate_inReset (c : Chan) (r : Rate) : (s.setRate c r).inReset = s.inReset := rfl
@[simp] theorem State.setRate_straps (c : Chan) (r : Rate) : (s.setRate c r).straps = s.straps := rfl
@[simp] theorem State.setRate_link (c : Chan) (r : Rate) : (s.setRate c r).link = s.link := rfl
@[simp] theorem State.setRate_handles (c : Chan) (r : Rate) : (s.setRate c r).handles = s.handles := rfl
@[simp] theorem State.setRate_retired (c : Chan) (r : Rate) : (s.setRate c r).retired = s.retired := rfl
@[simp] theorem State.setRate_serialCounter (c : Chan) (r : Rate) : (s.setRate c r).serialCounter = s.serialCounter := rfl
@[simp] theorem State.setRate_imagesMade (c : Chan) (r : Rate) : (s.setRate c r).imagesMade = s.imagesMade := rfl
@[simp] theorem State.setRate_free (c : Chan) (r : Rate) : (s.setRate c r).free = s.free := rfl
@[simp] theorem State.setRate_memory (c : Chan) (r : Rate) : (s.setRate c r).memory = s.memory := rfl
@[simp] theorem State.setRate_checkWords (c : Chan) (r : Rate) : (s.setRate c r).checkWords = s.checkWords := rfl
@[simp] theorem State.setRate_powerOns (c : Chan) (r : Rate) : (s.setRate c r).powerOns = s.powerOns := rfl
@[simp] theorem State.setRate_selfRefresh (c : Chan) (r : Rate) : (s.setRate c r).selfRefresh = s.selfRefresh := rfl
@[simp] theorem State.setRate_guards (c : Chan) (r : Rate) : (s.setRate c r).guards = s.guards := rfl
@[simp] theorem State.setRate_importer (c : Chan) (r : Rate) : (s.setRate c r).importer = s.importer := rfl
@[simp] theorem State.setRate_scanner (c : Chan) (r : Rate) : (s.setRate c r).scanner = s.scanner := rfl
@[simp] theorem State.setRate_steps (c : Chan) (r : Rate) : (s.setRate c r).steps = s.steps := rfl
@[simp] theorem State.setRate_partition (c : Chan) (r : Rate) : (s.setRate c r).partition = s.partition := rfl
@[simp] theorem State.setRate_flags (c : Chan) (r : Rate) : (s.setRate c r).flags = s.flags := rfl
@[simp] theorem State.setRate_lines (c : Chan) (r : Rate) : (s.setRate c r).lines = s.lines := rfl
@[simp] theorem State.setRate_pauseLine (c : Chan) (r : Rate) : (s.setRate c r).pauseLine = s.pauseLine := rfl
@[simp] theorem State.setRate_clock (c : Chan) (r : Rate) : (s.setRate c r).clock = s.clock := rfl

/-! ### setOutput -/

@[simp] theorem State.setOutput_pending (c : Chan) (o : Output) : (s.setOutput c o).pending = s.pending := rfl
@[simp] theorem State.setOutput_handed (c : Chan) (o : Output) : (s.setOutput c o).handed = s.handed := rfl
@[simp] theorem State.setOutput_inReset (c : Chan) (o : Output) : (s.setOutput c o).inReset = s.inReset := rfl
@[simp] theorem State.setOutput_straps (c : Chan) (o : Output) : (s.setOutput c o).straps = s.straps := rfl
@[simp] theorem State.setOutput_link (c : Chan) (o : Output) : (s.setOutput c o).link = s.link := rfl
@[simp] theorem State.setOutput_handles (c : Chan) (o : Output) : (s.setOutput c o).handles = s.handles := rfl
@[simp] theorem State.setOutput_retired (c : Chan) (o : Output) : (s.setOutput c o).retired = s.retired := rfl
@[simp] theorem State.setOutput_serialCounter (c : Chan) (o : Output) : (s.setOutput c o).serialCounter = s.serialCounter := rfl
@[simp] theorem State.setOutput_imagesMade (c : Chan) (o : Output) : (s.setOutput c o).imagesMade = s.imagesMade := rfl
@[simp] theorem State.setOutput_free (c : Chan) (o : Output) : (s.setOutput c o).free = s.free := rfl
@[simp] theorem State.setOutput_memory (c : Chan) (o : Output) : (s.setOutput c o).memory = s.memory := rfl
@[simp] theorem State.setOutput_checkWords (c : Chan) (o : Output) : (s.setOutput c o).checkWords = s.checkWords := rfl
@[simp] theorem State.setOutput_powerOns (c : Chan) (o : Output) : (s.setOutput c o).powerOns = s.powerOns := rfl
@[simp] theorem State.setOutput_selfRefresh (c : Chan) (o : Output) : (s.setOutput c o).selfRefresh = s.selfRefresh := rfl
@[simp] theorem State.setOutput_guards (c : Chan) (o : Output) : (s.setOutput c o).guards = s.guards := rfl
@[simp] theorem State.setOutput_importer (c : Chan) (o : Output) : (s.setOutput c o).importer = s.importer := rfl
@[simp] theorem State.setOutput_scanner (c : Chan) (o : Output) : (s.setOutput c o).scanner = s.scanner := rfl
@[simp] theorem State.setOutput_steps (c : Chan) (o : Output) : (s.setOutput c o).steps = s.steps := rfl
@[simp] theorem State.setOutput_partition (c : Chan) (o : Output) : (s.setOutput c o).partition = s.partition := rfl
@[simp] theorem State.setOutput_flags (c : Chan) (o : Output) : (s.setOutput c o).flags = s.flags := rfl
@[simp] theorem State.setOutput_lines (c : Chan) (o : Output) : (s.setOutput c o).lines = s.lines := rfl
@[simp] theorem State.setOutput_pauseLine (c : Chan) (o : Output) : (s.setOutput c o).pauseLine = s.pauseLine := rfl
@[simp] theorem State.setOutput_clock (c : Chan) (o : Output) : (s.setOutput c o).clock = s.clock := rfl

/-! ### hand -/

@[simp] theorem State.hand_pending (e : Instr) : (s.hand e).pending = s.pending := rfl
@[simp] theorem State.hand_handed (e : Instr) : (s.hand e).handed = s.handed ++ [e] := rfl
@[simp] theorem State.hand_inReset (e : Instr) : (s.hand e).inReset = s.inReset := rfl
@[simp] theorem State.hand_straps (e : Instr) : (s.hand e).straps = s.straps := rfl
@[simp] theorem State.hand_link (e : Instr) : (s.hand e).link = s.link := rfl
@[simp] theorem State.hand_handles (e : Instr) : (s.hand e).handles = s.handles := rfl
@[simp] theorem State.hand_retired (e : Instr) : (s.hand e).retired = s.retired := rfl
@[simp] theorem State.hand_serialCounter (e : Instr) : (s.hand e).serialCounter = s.serialCounter := rfl
@[simp] theorem State.hand_imagesMade (e : Instr) : (s.hand e).imagesMade = s.imagesMade := rfl
@[simp] theorem State.hand_free (e : Instr) : (s.hand e).free = s.free := rfl
@[simp] theorem State.hand_memory (e : Instr) : (s.hand e).memory = s.memory := rfl
@[simp] theorem State.hand_checkWords (e : Instr) : (s.hand e).checkWords = s.checkWords := rfl
@[simp] theorem State.hand_powerOns (e : Instr) : (s.hand e).powerOns = s.powerOns := rfl
@[simp] theorem State.hand_selfRefresh (e : Instr) : (s.hand e).selfRefresh = s.selfRefresh := rfl
@[simp] theorem State.hand_guards (e : Instr) : (s.hand e).guards = s.guards := rfl
@[simp] theorem State.hand_importer (e : Instr) : (s.hand e).importer = s.importer := rfl
@[simp] theorem State.hand_scanner (e : Instr) : (s.hand e).scanner = s.scanner := rfl
@[simp] theorem State.hand_steps (e : Instr) : (s.hand e).steps = s.steps := rfl
@[simp] theorem State.hand_partition (e : Instr) : (s.hand e).partition = s.partition := rfl
@[simp] theorem State.hand_channels (e : Instr) : (s.hand e).channels = s.channels := rfl
@[simp] theorem State.hand_flags (e : Instr) : (s.hand e).flags = s.flags := rfl
@[simp] theorem State.hand_lines (e : Instr) : (s.hand e).lines = s.lines := rfl
@[simp] theorem State.hand_pauseLine (e : Instr) : (s.hand e).pauseLine = s.pauseLine := rfl
@[simp] theorem State.hand_clock (e : Instr) : (s.hand e).clock = s.clock := rfl

/-! ### taken -/

@[simp] theorem State.taken_pending (e : Instr) : (s.taken e).pending = s.pending := rfl
@[simp] theorem State.taken_handed (e : Instr) : (s.taken e).handed = s.handed.erase e := rfl
@[simp] theorem State.taken_inReset (e : Instr) : (s.taken e).inReset = s.inReset := rfl
@[simp] theorem State.taken_straps (e : Instr) : (s.taken e).straps = s.straps := rfl
@[simp] theorem State.taken_link (e : Instr) : (s.taken e).link = s.link := rfl
@[simp] theorem State.taken_handles (e : Instr) : (s.taken e).handles = s.handles := rfl
@[simp] theorem State.taken_retired (e : Instr) : (s.taken e).retired = s.retired := rfl
@[simp] theorem State.taken_serialCounter (e : Instr) : (s.taken e).serialCounter = s.serialCounter := rfl
@[simp] theorem State.taken_imagesMade (e : Instr) : (s.taken e).imagesMade = s.imagesMade := rfl
@[simp] theorem State.taken_free (e : Instr) : (s.taken e).free = s.free := rfl
@[simp] theorem State.taken_memory (e : Instr) : (s.taken e).memory = s.memory := rfl
@[simp] theorem State.taken_checkWords (e : Instr) : (s.taken e).checkWords = s.checkWords := rfl
@[simp] theorem State.taken_powerOns (e : Instr) : (s.taken e).powerOns = s.powerOns := rfl
@[simp] theorem State.taken_selfRefresh (e : Instr) : (s.taken e).selfRefresh = s.selfRefresh := rfl
@[simp] theorem State.taken_guards (e : Instr) : (s.taken e).guards = s.guards := rfl
@[simp] theorem State.taken_importer (e : Instr) : (s.taken e).importer = s.importer := rfl
@[simp] theorem State.taken_scanner (e : Instr) : (s.taken e).scanner = s.scanner := rfl
@[simp] theorem State.taken_steps (e : Instr) : (s.taken e).steps = s.steps := rfl
@[simp] theorem State.taken_partition (e : Instr) : (s.taken e).partition = s.partition := rfl
@[simp] theorem State.taken_channels (e : Instr) : (s.taken e).channels = s.channels := rfl
@[simp] theorem State.taken_flags (e : Instr) : (s.taken e).flags = s.flags := rfl
@[simp] theorem State.taken_lines (e : Instr) : (s.taken e).lines = s.lines := rfl
@[simp] theorem State.taken_pauseLine (e : Instr) : (s.taken e).pauseLine = s.pauseLine := rfl
@[simp] theorem State.taken_clock (e : Instr) : (s.taken e).clock = s.clock := rfl

/-! ### withdraw -/

@[simp] theorem State.withdraw_pending (es : List Instr) : (s.withdraw es).pending = s.pending := rfl
@[simp] theorem State.withdraw_handed (es : List Instr) : (s.withdraw es).handed =
    s.handed.filter fun e => decide (e ∉ es) := rfl
@[simp] theorem State.withdraw_inReset (es : List Instr) : (s.withdraw es).inReset = s.inReset := rfl
@[simp] theorem State.withdraw_straps (es : List Instr) : (s.withdraw es).straps = s.straps := rfl
@[simp] theorem State.withdraw_link (es : List Instr) : (s.withdraw es).link = s.link := rfl
@[simp] theorem State.withdraw_handles (es : List Instr) : (s.withdraw es).handles = s.handles := rfl
@[simp] theorem State.withdraw_retired (es : List Instr) : (s.withdraw es).retired = s.retired := rfl
@[simp] theorem State.withdraw_serialCounter (es : List Instr) : (s.withdraw es).serialCounter = s.serialCounter := rfl
@[simp] theorem State.withdraw_imagesMade (es : List Instr) : (s.withdraw es).imagesMade = s.imagesMade := rfl
@[simp] theorem State.withdraw_free (es : List Instr) : (s.withdraw es).free = s.free := rfl
@[simp] theorem State.withdraw_memory (es : List Instr) : (s.withdraw es).memory = s.memory := rfl
@[simp] theorem State.withdraw_checkWords (es : List Instr) : (s.withdraw es).checkWords = s.checkWords := rfl
@[simp] theorem State.withdraw_powerOns (es : List Instr) : (s.withdraw es).powerOns = s.powerOns := rfl
@[simp] theorem State.withdraw_selfRefresh (es : List Instr) : (s.withdraw es).selfRefresh = s.selfRefresh := rfl
@[simp] theorem State.withdraw_guards (es : List Instr) : (s.withdraw es).guards = s.guards := rfl
@[simp] theorem State.withdraw_importer (es : List Instr) : (s.withdraw es).importer = s.importer := rfl
@[simp] theorem State.withdraw_scanner (es : List Instr) : (s.withdraw es).scanner = s.scanner := rfl
@[simp] theorem State.withdraw_steps (es : List Instr) : (s.withdraw es).steps = s.steps := rfl
@[simp] theorem State.withdraw_partition (es : List Instr) : (s.withdraw es).partition = s.partition := rfl
@[simp] theorem State.withdraw_channels (es : List Instr) : (s.withdraw es).channels = s.channels := rfl
@[simp] theorem State.withdraw_flags (es : List Instr) : (s.withdraw es).flags = s.flags := rfl
@[simp] theorem State.withdraw_lines (es : List Instr) : (s.withdraw es).lines = s.lines := rfl
@[simp] theorem State.withdraw_pauseLine (es : List Instr) : (s.withdraw es).pauseLine = s.pauseLine := rfl
@[simp] theorem State.withdraw_clock (es : List Instr) : (s.withdraw es).clock = s.clock := rfl

/-! ### notify -/

@[simp] theorem State.notify_pending (n : Notice) : (s.notify n).pending = s.pending := rfl
@[simp] theorem State.notify_handed (n : Notice) : (s.notify n).handed = s.handed := rfl
@[simp] theorem State.notify_inReset (n : Notice) : (s.notify n).inReset = s.inReset := rfl
@[simp] theorem State.notify_straps (n : Notice) : (s.notify n).straps = s.straps := rfl
@[simp] theorem State.notify_link (n : Notice) : (s.notify n).link = s.link.notify n := rfl
@[simp] theorem State.notify_handles (n : Notice) : (s.notify n).handles = s.handles := rfl
@[simp] theorem State.notify_retired (n : Notice) : (s.notify n).retired = s.retired := rfl
@[simp] theorem State.notify_serialCounter (n : Notice) : (s.notify n).serialCounter = s.serialCounter := rfl
@[simp] theorem State.notify_imagesMade (n : Notice) : (s.notify n).imagesMade = s.imagesMade := rfl
@[simp] theorem State.notify_free (n : Notice) : (s.notify n).free = s.free := rfl
@[simp] theorem State.notify_memory (n : Notice) : (s.notify n).memory = s.memory := rfl
@[simp] theorem State.notify_checkWords (n : Notice) : (s.notify n).checkWords = s.checkWords := rfl
@[simp] theorem State.notify_powerOns (n : Notice) : (s.notify n).powerOns = s.powerOns := rfl
@[simp] theorem State.notify_selfRefresh (n : Notice) : (s.notify n).selfRefresh = s.selfRefresh := rfl
@[simp] theorem State.notify_guards (n : Notice) : (s.notify n).guards = s.guards := rfl
@[simp] theorem State.notify_importer (n : Notice) : (s.notify n).importer = s.importer := rfl
@[simp] theorem State.notify_scanner (n : Notice) : (s.notify n).scanner = s.scanner := rfl
@[simp] theorem State.notify_steps (n : Notice) : (s.notify n).steps = s.steps := rfl
@[simp] theorem State.notify_partition (n : Notice) : (s.notify n).partition = s.partition := rfl
@[simp] theorem State.notify_channels (n : Notice) : (s.notify n).channels = s.channels := rfl
@[simp] theorem State.notify_flags (n : Notice) : (s.notify n).flags = s.flags := rfl
@[simp] theorem State.notify_lines (n : Notice) : (s.notify n).lines = s.lines := rfl
@[simp] theorem State.notify_pauseLine (n : Notice) : (s.notify n).pauseLine = s.pauseLine := rfl
@[simp] theorem State.notify_clock (n : Notice) : (s.notify n).clock = s.clock := rfl

/-! ### transmit -/

@[simp] theorem State.transmit_pending : (s.transmit).pending = s.pending := rfl
@[simp] theorem State.transmit_handed : (s.transmit).handed = s.handed := rfl
@[simp] theorem State.transmit_inReset : (s.transmit).inReset = s.inReset := rfl
@[simp] theorem State.transmit_straps : (s.transmit).straps = s.straps := rfl
@[simp] theorem State.transmit_link : (s.transmit).link = s.link.transmit := rfl
@[simp] theorem State.transmit_handles : (s.transmit).handles = s.handles := rfl
@[simp] theorem State.transmit_retired : (s.transmit).retired = s.retired := rfl
@[simp] theorem State.transmit_serialCounter : (s.transmit).serialCounter = s.serialCounter := rfl
@[simp] theorem State.transmit_imagesMade : (s.transmit).imagesMade = s.imagesMade := rfl
@[simp] theorem State.transmit_free : (s.transmit).free = s.free := rfl
@[simp] theorem State.transmit_memory : (s.transmit).memory = s.memory := rfl
@[simp] theorem State.transmit_checkWords : (s.transmit).checkWords = s.checkWords := rfl
@[simp] theorem State.transmit_powerOns : (s.transmit).powerOns = s.powerOns := rfl
@[simp] theorem State.transmit_selfRefresh : (s.transmit).selfRefresh = s.selfRefresh := rfl
@[simp] theorem State.transmit_guards : (s.transmit).guards = s.guards := rfl
@[simp] theorem State.transmit_importer : (s.transmit).importer = s.importer := rfl
@[simp] theorem State.transmit_scanner : (s.transmit).scanner = s.scanner := rfl
@[simp] theorem State.transmit_steps : (s.transmit).steps = s.steps := rfl
@[simp] theorem State.transmit_partition : (s.transmit).partition = s.partition := rfl
@[simp] theorem State.transmit_channels : (s.transmit).channels = s.channels := rfl
@[simp] theorem State.transmit_flags : (s.transmit).flags = s.flags := rfl
@[simp] theorem State.transmit_lines : (s.transmit).lines = s.lines := rfl
@[simp] theorem State.transmit_pauseLine : (s.transmit).pauseLine = s.pauseLine := rfl
@[simp] theorem State.transmit_clock : (s.transmit).clock = s.clock := rfl

/-! ### setHandle -/

@[simp] theorem State.setHandle_pending (h : Nat) (r : HandleRecord) : (s.setHandle h r).pending = s.pending := rfl
@[simp] theorem State.setHandle_handed (h : Nat) (r : HandleRecord) : (s.setHandle h r).handed = s.handed := rfl
@[simp] theorem State.setHandle_inReset (h : Nat) (r : HandleRecord) : (s.setHandle h r).inReset = s.inReset := rfl
@[simp] theorem State.setHandle_straps (h : Nat) (r : HandleRecord) : (s.setHandle h r).straps = s.straps := rfl
@[simp] theorem State.setHandle_link (h : Nat) (r : HandleRecord) : (s.setHandle h r).link = s.link := rfl
@[simp] theorem State.setHandle_handles (h : Nat) (r : HandleRecord) : (s.setHandle h r).handles = Sparse.set HandleRecord.empty s.handles h r := rfl
@[simp] theorem State.setHandle_retired (h : Nat) (r : HandleRecord) : (s.setHandle h r).retired = s.retired := rfl
@[simp] theorem State.setHandle_serialCounter (h : Nat) (r : HandleRecord) : (s.setHandle h r).serialCounter = s.serialCounter := rfl
@[simp] theorem State.setHandle_imagesMade (h : Nat) (r : HandleRecord) : (s.setHandle h r).imagesMade = s.imagesMade := rfl
@[simp] theorem State.setHandle_free (h : Nat) (r : HandleRecord) : (s.setHandle h r).free = s.free := rfl
@[simp] theorem State.setHandle_memory (h : Nat) (r : HandleRecord) : (s.setHandle h r).memory = s.memory := rfl
@[simp] theorem State.setHandle_checkWords (h : Nat) (r : HandleRecord) : (s.setHandle h r).checkWords = s.checkWords := rfl
@[simp] theorem State.setHandle_powerOns (h : Nat) (r : HandleRecord) : (s.setHandle h r).powerOns = s.powerOns := rfl
@[simp] theorem State.setHandle_selfRefresh (h : Nat) (r : HandleRecord) : (s.setHandle h r).selfRefresh = s.selfRefresh := rfl
@[simp] theorem State.setHandle_guards (h : Nat) (r : HandleRecord) : (s.setHandle h r).guards = s.guards := rfl
@[simp] theorem State.setHandle_importer (h : Nat) (r : HandleRecord) : (s.setHandle h r).importer = s.importer := rfl
@[simp] theorem State.setHandle_scanner (h : Nat) (r : HandleRecord) : (s.setHandle h r).scanner = s.scanner := rfl
@[simp] theorem State.setHandle_steps (h : Nat) (r : HandleRecord) : (s.setHandle h r).steps = s.steps := rfl
@[simp] theorem State.setHandle_partition (h : Nat) (r : HandleRecord) : (s.setHandle h r).partition = s.partition := rfl
@[simp] theorem State.setHandle_channels (h : Nat) (r : HandleRecord) : (s.setHandle h r).channels = s.channels := rfl
@[simp] theorem State.setHandle_flags (h : Nat) (r : HandleRecord) : (s.setHandle h r).flags = s.flags := rfl
@[simp] theorem State.setHandle_lines (h : Nat) (r : HandleRecord) : (s.setHandle h r).lines = s.lines := rfl
@[simp] theorem State.setHandle_pauseLine (h : Nat) (r : HandleRecord) : (s.setHandle h r).pauseLine = s.pauseLine := rfl
@[simp] theorem State.setHandle_clock (h : Nat) (r : HandleRecord) : (s.setHandle h r).clock = s.clock := rfl

/-! ### setScanner -/

@[simp] theorem State.setScanner_pending (x : Scanner) : (s.setScanner x).pending = s.pending := rfl
@[simp] theorem State.setScanner_handed (x : Scanner) : (s.setScanner x).handed = s.handed := rfl
@[simp] theorem State.setScanner_inReset (x : Scanner) : (s.setScanner x).inReset = s.inReset := rfl
@[simp] theorem State.setScanner_straps (x : Scanner) : (s.setScanner x).straps = s.straps := rfl
@[simp] theorem State.setScanner_link (x : Scanner) : (s.setScanner x).link = s.link := rfl
@[simp] theorem State.setScanner_handles (x : Scanner) : (s.setScanner x).handles = s.handles := rfl
@[simp] theorem State.setScanner_retired (x : Scanner) : (s.setScanner x).retired = s.retired := rfl
@[simp] theorem State.setScanner_serialCounter (x : Scanner) : (s.setScanner x).serialCounter = s.serialCounter := rfl
@[simp] theorem State.setScanner_imagesMade (x : Scanner) : (s.setScanner x).imagesMade = s.imagesMade := rfl
@[simp] theorem State.setScanner_free (x : Scanner) : (s.setScanner x).free = s.free := rfl
@[simp] theorem State.setScanner_memory (x : Scanner) : (s.setScanner x).memory = s.memory := rfl
@[simp] theorem State.setScanner_checkWords (x : Scanner) : (s.setScanner x).checkWords = s.checkWords := rfl
@[simp] theorem State.setScanner_powerOns (x : Scanner) : (s.setScanner x).powerOns = s.powerOns := rfl
@[simp] theorem State.setScanner_selfRefresh (x : Scanner) : (s.setScanner x).selfRefresh = s.selfRefresh := rfl
@[simp] theorem State.setScanner_guards (x : Scanner) : (s.setScanner x).guards = s.guards := rfl
@[simp] theorem State.setScanner_importer (x : Scanner) : (s.setScanner x).importer = s.importer := rfl
@[simp] theorem State.setScanner_scanner (x : Scanner) : (s.setScanner x).scanner = x := rfl
@[simp] theorem State.setScanner_steps (x : Scanner) : (s.setScanner x).steps = s.steps := rfl
@[simp] theorem State.setScanner_partition (x : Scanner) : (s.setScanner x).partition = s.partition := rfl
@[simp] theorem State.setScanner_channels (x : Scanner) : (s.setScanner x).channels = s.channels := rfl
@[simp] theorem State.setScanner_flags (x : Scanner) : (s.setScanner x).flags = s.flags := rfl
@[simp] theorem State.setScanner_lines (x : Scanner) : (s.setScanner x).lines = s.lines := rfl
@[simp] theorem State.setScanner_pauseLine (x : Scanner) : (s.setScanner x).pauseLine = s.pauseLine := rfl
@[simp] theorem State.setScanner_clock (x : Scanner) : (s.setScanner x).clock = s.clock := rfl

/-! ### returnPages -/

@[simp] theorem State.returnPages_pending (i : Image) : (s.returnPages i).pending = s.pending := rfl
@[simp] theorem State.returnPages_handed (i : Image) : (s.returnPages i).handed = s.handed := rfl
@[simp] theorem State.returnPages_inReset (i : Image) : (s.returnPages i).inReset = s.inReset := rfl
@[simp] theorem State.returnPages_straps (i : Image) : (s.returnPages i).straps = s.straps := rfl
@[simp] theorem State.returnPages_link (i : Image) : (s.returnPages i).link = s.link := rfl
@[simp] theorem State.returnPages_handles (i : Image) : (s.returnPages i).handles = s.handles := rfl
@[simp] theorem State.returnPages_retired (i : Image) : (s.returnPages i).retired = s.retired := rfl
@[simp] theorem State.returnPages_serialCounter (i : Image) : (s.returnPages i).serialCounter = s.serialCounter := rfl
@[simp] theorem State.returnPages_imagesMade (i : Image) : (s.returnPages i).imagesMade = s.imagesMade := rfl
@[simp] theorem State.returnPages_free (i : Image) : (s.returnPages i).free = giveBack ⟨i.firstPage, i.pageCount⟩ s.free := rfl
@[simp] theorem State.returnPages_memory (i : Image) : (s.returnPages i).memory = s.memory := rfl
@[simp] theorem State.returnPages_checkWords (i : Image) : (s.returnPages i).checkWords = s.checkWords := rfl
@[simp] theorem State.returnPages_powerOns (i : Image) : (s.returnPages i).powerOns = s.powerOns := rfl
@[simp] theorem State.returnPages_selfRefresh (i : Image) : (s.returnPages i).selfRefresh = s.selfRefresh := rfl
@[simp] theorem State.returnPages_guards (i : Image) : (s.returnPages i).guards = s.guards := rfl
@[simp] theorem State.returnPages_importer (i : Image) : (s.returnPages i).importer = s.importer := rfl
@[simp] theorem State.returnPages_scanner (i : Image) : (s.returnPages i).scanner = s.scanner := rfl
@[simp] theorem State.returnPages_steps (i : Image) : (s.returnPages i).steps = s.steps := rfl
@[simp] theorem State.returnPages_partition (i : Image) : (s.returnPages i).partition = s.partition := rfl
@[simp] theorem State.returnPages_channels (i : Image) : (s.returnPages i).channels = s.channels := rfl
@[simp] theorem State.returnPages_flags (i : Image) : (s.returnPages i).flags = s.flags := rfl
@[simp] theorem State.returnPages_lines (i : Image) : (s.returnPages i).lines = s.lines := rfl
@[simp] theorem State.returnPages_pauseLine (i : Image) : (s.returnPages i).pauseLine = s.pauseLine := rfl
@[simp] theorem State.returnPages_clock (i : Image) : (s.returnPages i).clock = s.clock := rfl

/-! ### storePage -/

@[simp] theorem State.storePage_pending (p : Nat) (bs : List Byte) : (s.storePage p bs).pending = s.pending := rfl
@[simp] theorem State.storePage_handed (p : Nat) (bs : List Byte) : (s.storePage p bs).handed = s.handed := rfl
@[simp] theorem State.storePage_inReset (p : Nat) (bs : List Byte) : (s.storePage p bs).inReset = s.inReset := rfl
@[simp] theorem State.storePage_straps (p : Nat) (bs : List Byte) : (s.storePage p bs).straps = s.straps := rfl
@[simp] theorem State.storePage_link (p : Nat) (bs : List Byte) : (s.storePage p bs).link = s.link := rfl
@[simp] theorem State.storePage_handles (p : Nat) (bs : List Byte) : (s.storePage p bs).handles = s.handles := rfl
@[simp] theorem State.storePage_retired (p : Nat) (bs : List Byte) : (s.storePage p bs).retired = s.retired := rfl
@[simp] theorem State.storePage_serialCounter (p : Nat) (bs : List Byte) : (s.storePage p bs).serialCounter = s.serialCounter := rfl
@[simp] theorem State.storePage_imagesMade (p : Nat) (bs : List Byte) : (s.storePage p bs).imagesMade = s.imagesMade := rfl
@[simp] theorem State.storePage_free (p : Nat) (bs : List Byte) : (s.storePage p bs).free = s.free := rfl
@[simp] theorem State.storePage_memory (p : Nat) (bs : List Byte) : (s.storePage p bs).memory = Memory.write s.memory (512 * p) bs := rfl
@[simp] theorem State.storePage_checkWords (p : Nat) (bs : List Byte) : (s.storePage p bs).checkWords = Sparse.put s.checkWords p (crc bs) := rfl
@[simp] theorem State.storePage_powerOns (p : Nat) (bs : List Byte) : (s.storePage p bs).powerOns = s.powerOns := rfl
@[simp] theorem State.storePage_selfRefresh (p : Nat) (bs : List Byte) : (s.storePage p bs).selfRefresh = s.selfRefresh := rfl
@[simp] theorem State.storePage_guards (p : Nat) (bs : List Byte) : (s.storePage p bs).guards = s.guards := rfl
@[simp] theorem State.storePage_importer (p : Nat) (bs : List Byte) : (s.storePage p bs).importer = s.importer := rfl
@[simp] theorem State.storePage_scanner (p : Nat) (bs : List Byte) : (s.storePage p bs).scanner = s.scanner := rfl
@[simp] theorem State.storePage_steps (p : Nat) (bs : List Byte) : (s.storePage p bs).steps = s.steps := rfl
@[simp] theorem State.storePage_partition (p : Nat) (bs : List Byte) : (s.storePage p bs).partition = s.partition := rfl
@[simp] theorem State.storePage_channels (p : Nat) (bs : List Byte) : (s.storePage p bs).channels = s.channels := rfl
@[simp] theorem State.storePage_flags (p : Nat) (bs : List Byte) : (s.storePage p bs).flags = s.flags := rfl
@[simp] theorem State.storePage_lines (p : Nat) (bs : List Byte) : (s.storePage p bs).lines = s.lines := rfl
@[simp] theorem State.storePage_pauseLine (p : Nat) (bs : List Byte) : (s.storePage p bs).pauseLine = s.pauseLine := rfl
@[simp] theorem State.storePage_clock (p : Nat) (bs : List Byte) : (s.storePage p bs).clock = s.clock := rfl

/-! ### setReceive -/

@[simp] theorem State.setReceive_pending (r : Receive) : (s.setReceive r).pending = s.pending := rfl
@[simp] theorem State.setReceive_handed (r : Receive) : (s.setReceive r).handed = s.handed := rfl
@[simp] theorem State.setReceive_inReset (r : Receive) : (s.setReceive r).inReset = s.inReset := rfl
@[simp] theorem State.setReceive_straps (r : Receive) : (s.setReceive r).straps = s.straps := rfl
@[simp] theorem State.setReceive_link (r : Receive) : (s.setReceive r).link = { s.link with receive := r } := rfl
@[simp] theorem State.setReceive_handles (r : Receive) : (s.setReceive r).handles = s.handles := rfl
@[simp] theorem State.setReceive_retired (r : Receive) : (s.setReceive r).retired = s.retired := rfl
@[simp] theorem State.setReceive_serialCounter (r : Receive) : (s.setReceive r).serialCounter = s.serialCounter := rfl
@[simp] theorem State.setReceive_imagesMade (r : Receive) : (s.setReceive r).imagesMade = s.imagesMade := rfl
@[simp] theorem State.setReceive_free (r : Receive) : (s.setReceive r).free = s.free := rfl
@[simp] theorem State.setReceive_memory (r : Receive) : (s.setReceive r).memory = s.memory := rfl
@[simp] theorem State.setReceive_checkWords (r : Receive) : (s.setReceive r).checkWords = s.checkWords := rfl
@[simp] theorem State.setReceive_powerOns (r : Receive) : (s.setReceive r).powerOns = s.powerOns := rfl
@[simp] theorem State.setReceive_selfRefresh (r : Receive) : (s.setReceive r).selfRefresh = s.selfRefresh := rfl
@[simp] theorem State.setReceive_guards (r : Receive) : (s.setReceive r).guards = s.guards := rfl
@[simp] theorem State.setReceive_importer (r : Receive) : (s.setReceive r).importer = s.importer := rfl
@[simp] theorem State.setReceive_scanner (r : Receive) : (s.setReceive r).scanner = s.scanner := rfl
@[simp] theorem State.setReceive_steps (r : Receive) : (s.setReceive r).steps = s.steps := rfl
@[simp] theorem State.setReceive_partition (r : Receive) : (s.setReceive r).partition = s.partition := rfl
@[simp] theorem State.setReceive_channels (r : Receive) : (s.setReceive r).channels = s.channels := rfl
@[simp] theorem State.setReceive_flags (r : Receive) : (s.setReceive r).flags = s.flags := rfl
@[simp] theorem State.setReceive_lines (r : Receive) : (s.setReceive r).lines = s.lines := rfl
@[simp] theorem State.setReceive_pauseLine (r : Receive) : (s.setReceive r).pauseLine = s.pauseLine := rfl
@[simp] theorem State.setReceive_clock (r : Receive) : (s.setReceive r).clock = s.clock := rfl

/-! ### A channel under the update of a channel -/

@[simp] theorem State.chan_setChan_self (c : Chan) (x : Channel) : (s.setChan c x).chan c = x := by
  simp [State.chan, State.setChan]

theorem State.chan_setChan_ne {c d : Chan} (h : c ≠ d) (x : Channel) :
    (s.setChan c x).chan d = s.chan d := by
  have : c.val ≠ d.val := fun e => h (Fin.ext e)
  simp [State.chan, State.setChan, this]

@[simp] theorem State.setChan_chan (c : Chan) : s.setChan c (s.chan c) = s := by
  simp [State.chan, State.setChan]

@[simp] theorem State.setChan_setChan (c : Chan) (x y : Channel) :
    (s.setChan c x).setChan c y = s.setChan c y := by
  simp [State.setChan]

@[simp] theorem State.setEngine_setEngine (c : Chan) (x y : Engine) :
    (s.setEngine c x).setEngine c y = s.setEngine c y := by
  simp [State.setEngine, State.setChan, State.chan]

@[simp] theorem State.setTimer_setTimer (c : Chan) (x y : Timer) :
    (s.setTimer c x).setTimer c y = s.setTimer c y := by
  simp [State.setTimer, State.setChan, State.chan]

@[simp] theorem State.setLatches_setLatches (c : Chan) (x y : Latches) :
    (s.setLatches c x).setLatches c y = s.setLatches c y := by
  simp [State.setLatches, State.setChan, State.chan]

@[simp] theorem State.setRate_setRate (c : Chan) (x y : Rate) :
    (s.setRate c x).setRate c y = s.setRate c y := by
  simp [State.setRate, State.setChan, State.chan]

@[simp] theorem State.setOutput_setOutput (c : Chan) (x y : Output) :
    (s.setOutput c x).setOutput c y = s.setOutput c y := by
  simp [State.setOutput, State.setChan, State.chan]

@[simp] theorem State.chan_setEngine_self (c : Chan) (x : Engine) :
    (s.setEngine c x).chan c = { s.chan c with engine := x } := State.chan_setChan_self s c _

theorem State.chan_setEngine_ne {c d : Chan} (h : c ≠ d) (x : Engine) :
    (s.setEngine c x).chan d = s.chan d := State.chan_setChan_ne s h _

@[simp] theorem State.engine_setEngine_self (c : Chan) (x : Engine) : (s.setEngine c x).engine c = x := by
  simp [State.engine]

@[simp] theorem State.timer_setEngine (c d : Chan) (x : Engine) : (s.setEngine c x).timer d = s.timer d := by
  unfold State.timer
  by_cases h : c = d
  · subst h; simp
  · rw [State.chan_setEngine_ne s h]

@[simp] theorem State.latches_setEngine (c d : Chan) (x : Engine) : (s.setEngine c x).latches d = s.latches d := by
  unfold State.latches
  by_cases h : c = d
  · subst h; simp
  · rw [State.chan_setEngine_ne s h]

@[simp] theorem State.rate_setEngine (c d : Chan) (x : Engine) : (s.setEngine c x).rate d = s.rate d := by
  unfold State.rate
  by_cases h : c = d
  · subst h; simp
  · rw [State.chan_setEngine_ne s h]

@[simp] theorem State.output_setEngine (c d : Chan) (x : Engine) : (s.setEngine c x).output d = s.output d := by
  unfold State.output
  by_cases h : c = d
  · subst h; simp
  · rw [State.chan_setEngine_ne s h]

@[simp] theorem State.chan_setTimer_self (c : Chan) (x : Timer) :
    (s.setTimer c x).chan c = { s.chan c with timer := x } := State.chan_setChan_self s c _

theorem State.chan_setTimer_ne {c d : Chan} (h : c ≠ d) (x : Timer) :
    (s.setTimer c x).chan d = s.chan d := State.chan_setChan_ne s h _

@[simp] theorem State.engine_setTimer (c d : Chan) (x : Timer) : (s.setTimer c x).engine d = s.engine d := by
  unfold State.engine
  by_cases h : c = d
  · subst h; simp
  · rw [State.chan_setTimer_ne s h]

@[simp] theorem State.timer_setTimer_self (c : Chan) (x : Timer) : (s.setTimer c x).timer c = x := by
  simp [State.timer]

@[simp] theorem State.latches_setTimer (c d : Chan) (x : Timer) : (s.setTimer c x).latches d = s.latches d := by
  unfold State.latches
  by_cases h : c = d
  · subst h; simp
  · rw [State.chan_setTimer_ne s h]

@[simp] theorem State.rate_setTimer (c d : Chan) (x : Timer) : (s.setTimer c x).rate d = s.rate d := by
  unfold State.rate
  by_cases h : c = d
  · subst h; simp
  · rw [State.chan_setTimer_ne s h]

@[simp] theorem State.output_setTimer (c d : Chan) (x : Timer) : (s.setTimer c x).output d = s.output d := by
  unfold State.output
  by_cases h : c = d
  · subst h; simp
  · rw [State.chan_setTimer_ne s h]

@[simp] theorem State.chan_setLatches_self (c : Chan) (x : Latches) :
    (s.setLatches c x).chan c = { s.chan c with latches := x } := State.chan_setChan_self s c _

theorem State.chan_setLatches_ne {c d : Chan} (h : c ≠ d) (x : Latches) :
    (s.setLatches c x).chan d = s.chan d := State.chan_setChan_ne s h _

@[simp] theorem State.engine_setLatches (c d : Chan) (x : Latches) : (s.setLatches c x).engine d = s.engine d := by
  unfold State.engine
  by_cases h : c = d
  · subst h; simp
  · rw [State.chan_setLatches_ne s h]

@[simp] theorem State.timer_setLatches (c d : Chan) (x : Latches) : (s.setLatches c x).timer d = s.timer d := by
  unfold State.timer
  by_cases h : c = d
  · subst h; simp
  · rw [State.chan_setLatches_ne s h]

@[simp] theorem State.latches_setLatches_self (c : Chan) (x : Latches) : (s.setLatches c x).latches c = x := by
  simp [State.latches]

@[simp] theorem State.rate_setLatches (c d : Chan) (x : Latches) : (s.setLatches c x).rate d = s.rate d := by
  unfold State.rate
  by_cases h : c = d
  · subst h; simp
  · rw [State.chan_setLatches_ne s h]

@[simp] theorem State.output_setLatches (c d : Chan) (x : Latches) : (s.setLatches c x).output d = s.output d := by
  unfold State.output
  by_cases h : c = d
  · subst h; simp
  · rw [State.chan_setLatches_ne s h]

@[simp] theorem State.chan_setRate_self (c : Chan) (x : Rate) :
    (s.setRate c x).chan c = { s.chan c with rate := x } := State.chan_setChan_self s c _

theorem State.chan_setRate_ne {c d : Chan} (h : c ≠ d) (x : Rate) :
    (s.setRate c x).chan d = s.chan d := State.chan_setChan_ne s h _

@[simp] theorem State.engine_setRate (c d : Chan) (x : Rate) : (s.setRate c x).engine d = s.engine d := by
  unfold State.engine
  by_cases h : c = d
  · subst h; simp
  · rw [State.chan_setRate_ne s h]

@[simp] theorem State.timer_setRate (c d : Chan) (x : Rate) : (s.setRate c x).timer d = s.timer d := by
  unfold State.timer
  by_cases h : c = d
  · subst h; simp
  · rw [State.chan_setRate_ne s h]

@[simp] theorem State.latches_setRate (c d : Chan) (x : Rate) : (s.setRate c x).latches d = s.latches d := by
  unfold State.latches
  by_cases h : c = d
  · subst h; simp
  · rw [State.chan_setRate_ne s h]

@[simp] theorem State.rate_setRate_self (c : Chan) (x : Rate) : (s.setRate c x).rate c = x := by
  simp [State.rate]

@[simp] theorem State.output_setRate (c d : Chan) (x : Rate) : (s.setRate c x).output d = s.output d := by
  unfold State.output
  by_cases h : c = d
  · subst h; simp
  · rw [State.chan_setRate_ne s h]

@[simp] theorem State.chan_setOutput_self (c : Chan) (x : Output) :
    (s.setOutput c x).chan c = { s.chan c with output := x } := State.chan_setChan_self s c _

theorem State.chan_setOutput_ne {c d : Chan} (h : c ≠ d) (x : Output) :
    (s.setOutput c x).chan d = s.chan d := State.chan_setChan_ne s h _

@[simp] theorem State.engine_setOutput (c d : Chan) (x : Output) : (s.setOutput c x).engine d = s.engine d := by
  unfold State.engine
  by_cases h : c = d
  · subst h; simp
  · rw [State.chan_setOutput_ne s h]

@[simp] theorem State.timer_setOutput (c d : Chan) (x : Output) : (s.setOutput c x).timer d = s.timer d := by
  unfold State.timer
  by_cases h : c = d
  · subst h; simp
  · rw [State.chan_setOutput_ne s h]

@[simp] theorem State.latches_setOutput (c d : Chan) (x : Output) : (s.setOutput c x).latches d = s.latches d := by
  unfold State.latches
  by_cases h : c = d
  · subst h; simp
  · rw [State.chan_setOutput_ne s h]

@[simp] theorem State.rate_setOutput (c d : Chan) (x : Output) : (s.setOutput c x).rate d = s.rate d := by
  unfold State.rate
  by_cases h : c = d
  · subst h; simp
  · rw [State.chan_setOutput_ne s h]

@[simp] theorem State.output_setOutput_self (c : Chan) (x : Output) : (s.setOutput c x).output c = x := by
  simp [State.output]

@[simp] theorem State.chan_hand (e : Instr) (c : Chan) : (s.hand e).chan c = s.chan c := rfl
@[simp] theorem State.engine_hand (e : Instr) (c : Chan) : (s.hand e).engine c = s.engine c := rfl
@[simp] theorem State.timer_hand (e : Instr) (c : Chan) : (s.hand e).timer c = s.timer c := rfl
@[simp] theorem State.latches_hand (e : Instr) (c : Chan) : (s.hand e).latches c = s.latches c := rfl
@[simp] theorem State.rate_hand (e : Instr) (c : Chan) : (s.hand e).rate c = s.rate c := rfl
@[simp] theorem State.output_hand (e : Instr) (c : Chan) : (s.hand e).output c = s.output c := rfl
@[simp] theorem State.chan_taken (e : Instr) (c : Chan) : (s.taken e).chan c = s.chan c := rfl
@[simp] theorem State.engine_taken (e : Instr) (c : Chan) : (s.taken e).engine c = s.engine c := rfl
@[simp] theorem State.timer_taken (e : Instr) (c : Chan) : (s.taken e).timer c = s.timer c := rfl
@[simp] theorem State.latches_taken (e : Instr) (c : Chan) : (s.taken e).latches c = s.latches c := rfl
@[simp] theorem State.rate_taken (e : Instr) (c : Chan) : (s.taken e).rate c = s.rate c := rfl
@[simp] theorem State.output_taken (e : Instr) (c : Chan) : (s.taken e).output c = s.output c := rfl
@[simp] theorem State.chan_notify (n : Notice) (c : Chan) : (s.notify n).chan c = s.chan c := rfl
@[simp] theorem State.engine_notify (n : Notice) (c : Chan) : (s.notify n).engine c = s.engine c := rfl
@[simp] theorem State.timer_notify (n : Notice) (c : Chan) : (s.notify n).timer c = s.timer c := rfl
@[simp] theorem State.latches_notify (n : Notice) (c : Chan) : (s.notify n).latches c = s.latches c := rfl
@[simp] theorem State.rate_notify (n : Notice) (c : Chan) : (s.notify n).rate c = s.rate c := rfl
@[simp] theorem State.output_notify (n : Notice) (c : Chan) : (s.notify n).output c = s.output c := rfl
@[simp] theorem State.chan_transmit (c : Chan) : (s.transmit).chan c = s.chan c := rfl
@[simp] theorem State.engine_transmit (c : Chan) : (s.transmit).engine c = s.engine c := rfl
@[simp] theorem State.timer_transmit (c : Chan) : (s.transmit).timer c = s.timer c := rfl
@[simp] theorem State.latches_transmit (c : Chan) : (s.transmit).latches c = s.latches c := rfl
@[simp] theorem State.rate_transmit (c : Chan) : (s.transmit).rate c = s.rate c := rfl
@[simp] theorem State.output_transmit (c : Chan) : (s.transmit).output c = s.output c := rfl
@[simp] theorem State.chan_setHandle (h : Nat) (r : HandleRecord) (c : Chan) : (s.setHandle h r).chan c = s.chan c := rfl
@[simp] theorem State.engine_setHandle (h : Nat) (r : HandleRecord) (c : Chan) : (s.setHandle h r).engine c = s.engine c := rfl
@[simp] theorem State.timer_setHandle (h : Nat) (r : HandleRecord) (c : Chan) : (s.setHandle h r).timer c = s.timer c := rfl
@[simp] theorem State.latches_setHandle (h : Nat) (r : HandleRecord) (c : Chan) : (s.setHandle h r).latches c = s.latches c := rfl
@[simp] theorem State.rate_setHandle (h : Nat) (r : HandleRecord) (c : Chan) : (s.setHandle h r).rate c = s.rate c := rfl
@[simp] theorem State.output_setHandle (h : Nat) (r : HandleRecord) (c : Chan) : (s.setHandle h r).output c = s.output c := rfl
@[simp] theorem State.chan_setScanner (x : Scanner) (c : Chan) : (s.setScanner x).chan c = s.chan c := rfl
@[simp] theorem State.engine_setScanner (x : Scanner) (c : Chan) : (s.setScanner x).engine c = s.engine c := rfl
@[simp] theorem State.timer_setScanner (x : Scanner) (c : Chan) : (s.setScanner x).timer c = s.timer c := rfl
@[simp] theorem State.latches_setScanner (x : Scanner) (c : Chan) : (s.setScanner x).latches c = s.latches c := rfl
@[simp] theorem State.rate_setScanner (x : Scanner) (c : Chan) : (s.setScanner x).rate c = s.rate c := rfl
@[simp] theorem State.output_setScanner (x : Scanner) (c : Chan) : (s.setScanner x).output c = s.output c := rfl
@[simp] theorem State.chan_returnPages (i : Image) (c : Chan) : (s.returnPages i).chan c = s.chan c := rfl
@[simp] theorem State.engine_returnPages (i : Image) (c : Chan) : (s.returnPages i).engine c = s.engine c := rfl
@[simp] theorem State.timer_returnPages (i : Image) (c : Chan) : (s.returnPages i).timer c = s.timer c := rfl
@[simp] theorem State.latches_returnPages (i : Image) (c : Chan) : (s.returnPages i).latches c = s.latches c := rfl
@[simp] theorem State.rate_returnPages (i : Image) (c : Chan) : (s.returnPages i).rate c = s.rate c := rfl
@[simp] theorem State.output_returnPages (i : Image) (c : Chan) : (s.returnPages i).output c = s.output c := rfl
@[simp] theorem State.chan_storePage (p : Nat) (bs : List Byte) (c : Chan) : (s.storePage p bs).chan c = s.chan c := rfl
@[simp] theorem State.engine_storePage (p : Nat) (bs : List Byte) (c : Chan) : (s.storePage p bs).engine c = s.engine c := rfl
@[simp] theorem State.timer_storePage (p : Nat) (bs : List Byte) (c : Chan) : (s.storePage p bs).timer c = s.timer c := rfl
@[simp] theorem State.latches_storePage (p : Nat) (bs : List Byte) (c : Chan) : (s.storePage p bs).latches c = s.latches c := rfl
@[simp] theorem State.rate_storePage (p : Nat) (bs : List Byte) (c : Chan) : (s.storePage p bs).rate c = s.rate c := rfl
@[simp] theorem State.output_storePage (p : Nat) (bs : List Byte) (c : Chan) : (s.storePage p bs).output c = s.output c := rfl
@[simp] theorem State.chan_setReceive (r : Receive) (c : Chan) : (s.setReceive r).chan c = s.chan c := rfl
@[simp] theorem State.engine_setReceive (r : Receive) (c : Chan) : (s.setReceive r).engine c = s.engine c := rfl
@[simp] theorem State.timer_setReceive (r : Receive) (c : Chan) : (s.setReceive r).timer c = s.timer c := rfl
@[simp] theorem State.latches_setReceive (r : Receive) (c : Chan) : (s.setReceive r).latches c = s.latches c := rfl
@[simp] theorem State.rate_setReceive (r : Receive) (c : Chan) : (s.setReceive r).rate c = s.rate c := rfl
@[simp] theorem State.output_setReceive (r : Receive) (c : Chan) : (s.setReceive r).output c = s.output c := rfl

/-! ### The queue of commands is set apart -/

@[simp] theorem State.chan_pending (q : List Instr) (c : Chan) :
    ({ s with pending := q } : State).chan c = s.chan c := rfl

end Sys2Proof.Machine
end

