-- ==== Sys2Proof/Laws/Channels.lean ====
section
/-!
SUPPORT. What is done for each channel in turn, said once: an action that changes its own channel alone
leaves each channel at its own value, and the operand changes that are handed on are those of a filter;
what the preparation of a RUN makes; when the hold leaves a channel as it is; what a channel takes before
another event.
-/
namespace Sys2Proof.Machine

/-- The byte of a channel number names the channel. -/
theorem chanOfCode_ofNat (c : Chan) : chanOfCode (BitVec.ofNat 8 c.val) = some c := by
  revert c; decide

theorem mem_allChannels (c : Chan) : c ∈ allChannels := by revert c; decide

theorem nodup_allChannels : allChannels.Nodup := by decide

theorem mem_maskChannels (m : Byte) (c : Chan) :
    c ∈ maskChannels m ↔ m.getLsbD c.val = true := by
  simp [maskChannels, mem_allChannels]

theorem nodup_maskChannels (m : Byte) : (maskChannels m).Nodup :=
  List.Nodup.sublist List.filter_sublist nodup_allChannels

/-- A mask made of a test names the channels that satisfy it. -/
theorem getLsbD_maskOf (p : Chan → Bool) (c : Chan) : (maskOf p).getLsbD c.val = p c := by
  have bit : ∀ c d : Chan, (1#8 <<< d.val).getLsbD c.val = decide (c = d) := by decide
  have h : ∀ l : List Chan,
      (l.foldr (fun d acc => if p d then acc ||| (1#8 <<< d.val) else acc) (0 : Byte)).getLsbD c.val =
        (decide (c ∈ l) && p c) := by
    intro l
    induction l with
    | nil => simp
    | cons d l ih =>
      simp only [List.foldr_cons]
      by_cases hd : p d = true
      · simp only [hd, if_true, BitVec.getLsbD_or, ih, bit, List.mem_cons]
        by_cases hc : c = d
        · subst hc; simp [hd]
        · simp [hc]
      · rw [if_neg hd, ih]
        by_cases hc : c = d
        · subst hc; simp [hd]
        · simp [hc]
  have := h allChannels
  rw [decide_eq_true (mem_allChannels c), Bool.true_and] at this
  exact this

theorem maskOf_eq_zero (p : Chan → Bool) : maskOf p = 0 ↔ ∀ c, p c = false := by
  constructor
  · intro h c
    rw [← getLsbD_maskOf p c, h]; simp
  · intro h
    have : p = fun _ => false := funext h
    rw [this]; rfl

/-- Actions in turn, each of which puts a value of its own on its channel and changes nothing else. -/
theorem State.foldl_local (s : State) (g : Chan → Channel) (f : Chan → State → State) (l : List Chan)
    (hl : l.Nodup)
    (hf : ∀ c ∈ l, ∀ u : State, u = { s with channels := u.channels } → u.chan c = s.chan c →
      f c u = u.setChan c (g c)) :
    (∀ d, (l.foldl (fun u c => f c u) s).chan d = if d ∈ l then g d else s.chan d) ∧
      l.foldl (fun u c => f c u) s = { s with channels := (l.foldl (fun u c => f c u) s).channels } := by
  suffices h : ∀ (l : List Chan) (u : State), l.Nodup → u = { s with channels := u.channels } →
      (∀ d ∈ l, u.chan d = s.chan d) →
      (∀ c ∈ l, ∀ u : State, u = { s with channels := u.channels } → u.chan c = s.chan c →
        f c u = u.setChan c (g c)) →
      (∀ d, (l.foldl (fun u c => f c u) u).chan d = if d ∈ l then g d else u.chan d) ∧
        l.foldl (fun u c => f c u) u =
          { s with channels := (l.foldl (fun u c => f c u) u).channels } from
    h l s hl rfl (fun _ _ => rfl) hf
  intro l
  induction l with
  | nil => intro u _ hu _ _; exact ⟨by simp, hu⟩
  | cons c l ih =>
    intro u hn hu hc hf
    have hstep : f c u = u.setChan c (g c) :=
      hf c (List.mem_cons_self ..) u hu (hc c (List.mem_cons_self ..))
    have hn' := List.nodup_cons.mp hn
    have hne : ∀ d ∈ l, c ≠ d := fun d hd e => hn'.1 (e ▸ hd)
    have hu' : u.setChan c (g c) = { s with channels := (u.setChan c (g c)).channels } := by
      conv => lhs; rw [hu]
      rfl
    have hc' : ∀ d ∈ l, (u.setChan c (g c)).chan d = s.chan d := fun d hd => by
      rw [State.chan_setChan_ne u (hne d hd)]
      exact hc d (List.mem_cons_of_mem _ hd)
    have hi := ih (u.setChan c (g c)) hn'.2 hu' hc' fun d hd => hf d (List.mem_cons_of_mem _ hd)
    simp only [List.foldl_cons, hstep]
    refine ⟨fun d => ?_, hi.2⟩
    rw [hi.1 d]
    by_cases hd : d ∈ l
    · simp [hd]
    · by_cases he : d = c
      · subst he; simp [hd]
      · simp [hd, he, State.chan_setChan_ne u (fun e => he e.symm)]

/-- The same for every channel. -/
theorem State.eachChannel_local (s : State) (g : Chan → Channel) (f : Chan → State → State)
    (hf : ∀ c, ∀ u : State, u = { s with channels := u.channels } → u.chan c = s.chan c →
      f c u = u.setChan c (g c)) :
    (∀ d, (s.eachChannel f).chan d = g d) ∧
      s.eachChannel f = { s with channels := (s.eachChannel f).channels } := by
  have h := State.foldl_local s g f allChannels nodup_allChannels fun c _ => hf c
  refine ⟨fun d => ?_, h.2⟩
  have := h.1 d
  rw [if_pos (mem_allChannels d)] at this
  exact this

/-- R125: the operand changes handed on are those of the channels whose standing test reads an operand
that changed, in ascending order; nothing else changes. -/
theorem State.handChanges_eq (s : State) (f : Chan → Operand → Bool) :
    s.handChanges f = { s with
      handed := s.handed ++ (allChannels.filter fun d =>
        (s.engine d).standing.any fun q => f d q.operand).map Instr.operandChange } := by
  have key : ∀ (l : List Chan) (u : State), u.channels = s.channels →
      l.foldl (fun u c => match (u.engine c).standing with
        | some q => if f c q.operand then u.hand (.operandChange c) else u
        | none => u) u = { u with
          handed := u.handed ++ (l.filter fun d =>
            (s.engine d).standing.any fun q => f d q.operand).map Instr.operandChange } := by
    intro l
    induction l with
    | nil => intro u _; simp
    | cons c l ih =>
      intro u hu
      have he : u.engine c = s.engine c := by simp [State.engine, State.chan, hu]
      simp only [List.foldl_cons, he]
      cases hq : (s.engine c).standing with
      | none => simp only []; rw [ih u hu]; simp [hq]
      | some q =>
        simp only []
        by_cases hf : f c q.operand = true
        · rw [if_pos hf, ih (u.hand (.operandChange c)) hu]
          simp [hq, hf, State.hand]
        · rw [if_neg hf, ih u hu]; simp [hq, hf]
  exact key allChannels s rfl

/-- R83: a channel as the preparation of a RUN leaves it. -/
def Channel.prepared (x : Channel) (hold : Bool) (start : Nat) (q : Condition) : Channel :=
  { x with
    engine := { x.engine with
      run := .armed, activity := .between, held := hold, stopPending := false, start := some q
      index := start, lastCode := none, stepsAtEvent := 0, loops := [], returns := [] }
    rate := { x.rate with phase := 0 } }

/-- R83, R145: the preparation of a RUN prepares each named channel, withdraws what was handed to them before
and changes nothing else. -/
theorem State.prepared_eq (s : State) (mask : Byte) (start : Nat) (q : Condition) :
    let t := (maskChannels mask).foldl (fun u c => u.armChannel start q c)
      (s.withdraw ((maskChannels mask).map Instr.samplePeriod ++
        (maskChannels mask).map Instr.operandChange))
    (∀ c, t.chan c =
      if c ∈ maskChannels mask then (s.chan c).prepared s.clock.hold start q else s.chan c) ∧
    t = { s with
      channels := t.channels
      handed := s.handed.filter fun e => decide
        (e ∉ (maskChannels mask).map Instr.samplePeriod ++
          (maskChannels mask).map Instr.operandChange) } := by
  refine State.foldl_local (s.withdraw _)
    (fun c => (s.chan c).prepared s.clock.hold start q) (fun c u => u.armChannel start q c)
    (maskChannels mask) (nodup_maskChannels mask) ?_
  intro c _ u hu hc
  have hcl : u.clock = s.clock := by rw [hu]; rfl
  have hch : u.chan c = s.chan c := hc
  simp [State.armChannel, Channel.prepared, State.engine, State.rate, State.setEngine, State.setRate,
    hch, hcl]

/-- R81: while the hold is dropped a raise leaves every channel free. -/
theorem State.raiseHold_of_dropped {s : State} (h : s.clock.hold = false) (c : Chan) :
    s.raiseHold c = s := by simp [State.raiseHold, h]

/-- R81: while the hold is raised a drop leaves every channel held. -/
theorem State.dropHold_of_raised {s : State} (h : s.clock.hold = true) (c : Chan) :
    s.dropHold c = s.taken (.holdDrop (.channel c)) := by simp [State.dropHold, h]

/-- With nothing older handed to the channel, an event is taken as it is. -/
theorem State.catchUp_nil {s : State} {c : Chan} {e : Instr} (h : s.signalsBefore c e = []) :
    s.catchUp c e = s := by simp [State.catchUp, h, State.takeSignals]

/-- The oldest of the events handed to the channel is taken first. -/
theorem State.catchUp_cons {s : State} {c : Chan} {e x : Instr} {rest : List Instr}
    (h : s.signalsBefore c e = x :: rest) :
    s.catchUp c e = ((s.signalEvent x).transmit).takeSignals rest := by
  simp [State.catchUp, h, State.takeSignals]

/-- A channel in a PLAY step, or outside its run, keeps the sample periods that stand handed to it. -/
theorem State.passPeriods_of_not_carries {s : State} {c : Chan} (h : (s.engine c).carries = false)
    (n : Nat) : s.passPeriods c n = s := by cases n <;> simp [State.passPeriods, h]

/-- A channel that delivers no sample takes, before it goes on, a sample period that stands handed to it. -/
theorem State.passPeriods_succ {s : State} {c : Chan} (h : (s.engine c).carries = true) (n : Nat) :
    s.passPeriods c (n + 1) =
      (if s.clock.hold then s.taken (.samplePeriod c)
        else (s.periodEvent c).transmit).passPeriods c n := by
  rw [State.passPeriods, if_pos h]

/-- R101, R102, R109: what makes a channel IDLE. -/
theorem State.idleChannel_eq (s : State) (c : Chan) :
    s.idleChannel c = s.setChan c (s.chan c).stopped := by
  simp only [State.idleChannel, State.restOutput, State.clearLatches, State.clearTimer,
    State.setOutput, State.setEngine, State.setLatches, State.setTimer, State.output, State.timer,
    State.latches, State.engine, State.chan_setChan_self, State.setChan_setChan]
  congr 1
  simp [Channel.stopped, Engine.toIdle, Engine.reset, Output.toRest, Output.driveLines, markerLine]

/-- R35: a channel outside PLAY steps has no reference to release. -/
theorem State.endReference_none {s : State} {c : Chan} (h : s.playOf c = none) :
    s.endReference c = s := by
  unfold State.endReference
  simp only [State.playOf] at h
  split <;> simp_all [Activity.playRecord?]

/-- R116: a consumed latch is all that a true test changes. -/
theorem State.engine_consume (s : State) (c d : Chan) (o : Operand) :
    (s.consume c o).engine d = s.engine d := by
  cases o <;> simp [State.consume]

/-! ### Sample periods that a channel takes before it goes on -/

/-- The state in which a channel begins a sample period has its engine as it was. -/
theorem State.engine_settled (s : State) (c : Chan) (r : Rate) (o : Output) :
    (((s.taken (.samplePeriod c)).setRate c r).setOutput c o).engine c = s.engine c := by
  simp [State.setRate, State.setOutput, State.engine]

/-- R162: a sample period of an ARMED channel leaves its engine as it was. -/
theorem State.engine_periodEvent_armed {s : State} {c : Chan} (h : (s.engine c).run = .armed) :
    (s.periodEvent c).engine c = s.engine c := by
  unfold State.periodEvent State.samplePeriod
  simp only [State.engine_settled, h]
  simp [State.carryRest, State.setRate, State.setOutput, State.engine]

/-- R98, R162: a sample period of a WAITING channel leaves it WAITING. -/
theorem State.engine_periodEvent_waiting {s : State} {c : Chan} {w : WaitRecord}
    (hr : (s.engine c).run = .running) (ha : (s.engine c).activity = .waiting w) :
    ((s.periodEvent c).engine c).run = .running ∧
      ((s.periodEvent c).engine c).activity = .waiting w ∧
      ((s.periodEvent c).engine c).held = (s.engine c).held := by
  unfold State.periodEvent State.samplePeriod
  simp only [State.engine_settled, hr, ha]
  generalize hu : State.setOutput _ c _ = u
  have he : u.engine c = s.engine c := by rw [← hu]; exact State.engine_settled s c _ _
  have rest : (u.carryRest c).engine c = s.engine c := by
    rw [← he]; simp [State.carryRest, State.setOutput, State.engine]
  unfold State.waitPeriod
  split
  · refine ⟨?_, ?_, ?_⟩ <;>
      simp only [State.carryCode, State.engine_setEngine_self] <;>
      simp [State.engine] <;> simp [State.engine] at he <;> rw [he] <;> assumption
  · rw [rest]; exact ⟨hr, ha, rfl⟩
  · rw [rest]; exact ⟨hr, ha, rfl⟩

/-- An ARMED channel is as it was after the sample periods it takes before its start test. -/
theorem State.engine_passPeriods_armed {c : Chan} : ∀ (n : Nat) {s : State},
    (s.engine c).run = .armed → (s.passPeriods c n).engine c = s.engine c := by
  intro n
  induction n with
  | zero => intro s _; rfl
  | succ n ih =>
    intro s h
    rw [State.passPeriods_succ (by simp [Engine.carries, h])]
    split
    · exact ih (s := s.taken _) h
    · have hs : ((s.periodEvent c).transmit).engine c = s.engine c :=
        State.engine_periodEvent_armed h
      rw [ih (by rw [hs]; exact h), hs]

/-- A WAITING channel is WAITING after the sample periods it takes before its release test. -/
theorem State.engine_passPeriods_waiting {c : Chan} {w : WaitRecord} : ∀ (n : Nat) {s : State},
    (s.engine c).run = .running → (s.engine c).activity = .waiting w →
      ((s.passPeriods c n).engine c).run = .running ∧
        ((s.passPeriods c n).engine c).activity = .waiting w ∧
        ((s.passPeriods c n).engine c).held = (s.engine c).held := by
  intro n
  induction n with
  | zero => intro s hr ha; exact ⟨hr, ha, rfl⟩
  | succ n ih =>
    intro s hr ha
    rw [State.passPeriods_succ (by simp [Engine.carries, hr, ha])]
    split
    · exact ih (s := s.taken _) hr ha
    · obtain ⟨h1, h2, h3⟩ := State.engine_periodEvent_waiting hr ha
      obtain ⟨k1, k2, k3⟩ := ih (s := (s.periodEvent c).transmit) h1 h2
      exact ⟨k1, k2, k3.trans h3⟩

end Sys2Proof.Machine
end

