-- ==== Sys2Proof/Laws/Conditions.lean ====
section
/-!
SUPPORT. Tests of conditions (R115, R116), said once: the outcome, and what a true test consumes.
-/
namespace Sys2Proof.Machine

variable {s : State} {c : Chan} {q : Condition}

/-- The state after a true test: with sense NORMAL the latch that was read is consumed. -/
def State.tested (s : State) (c : Chan) (q : Condition) : State :=
  if q.negated = true then s else s.consume c q.operand

/-- R116: a test is true where its operand differs from its sense. -/
theorem State.test_true (h : s.operand c q.operand ≠ q.negated) : s.test c q = (true, s.tested c q) := by
  unfold State.test State.tested
  cases ho : s.operand c q.operand <;> cases hq : q.negated <;> simp_all

/-- R116: a false test changes nothing. -/
theorem State.test_false (h : s.operand c q.operand = q.negated) : s.test c q = (false, s) := by
  unfold State.test
  cases ho : s.operand c q.operand <;> cases hq : q.negated <;> simp_all

/-- A consumed latch leaves every engine as it was. -/
theorem State.engine_tested (s : State) (c d : Chan) (q : Condition) :
    (s.tested c q).engine d = s.engine d := by
  unfold State.tested
  split
  · rfl
  · cases q.operand <;> simp [State.consume]

end Sys2Proof.Machine
end

