-- ==== Sys2Proof/Laws/Engine.lean ====
section
/-!
SUPPORT. What a channel engine's work leaves alone: the channels other than its own; and where it takes its
own channel: it stays in its run state, or its run ends.
-/
namespace Sys2Proof.Machine

variable {c d : Chan}

/-! ### Tests and the ends of a run -/

theorem State.chan_consume_ne (s : State) (h : c ≠ d) (o : Operand) :
    (s.consume c o).chan d = s.chan d := by
  cases o <;> simp [State.consume, State.chan_setLatches_ne _ h, State.chan_setTimer_ne _ h]

theorem State.chan_test_ne (s : State) (h : c ≠ d) (q : Condition) :
    (s.test c q).2.chan d = s.chan d := by
  unfold State.test
  split
  · rfl
  · split
    · exact s.chan_consume_ne h _
    · rfl

@[simp] theorem State.chan_mapImages (s : State) (f : Image → Image) (d : Chan) :
    (s.mapImages f).chan d = s.chan d := rfl

@[simp] theorem State.chan_release (s : State) (serial : Nat) (d : Chan) :
    (s.release serial).chan d = s.chan d := by
  unfold State.release
  simp only
  split <;> rfl

@[simp] theorem State.chan_endReference (s : State) (c d : Chan) :
    (s.endReference c).chan d = s.chan d := by
  unfold State.endReference
  split <;> simp

theorem State.chan_idleChannel_ne (s : State) (h : c ≠ d) : (s.idleChannel c).chan d = s.chan d := by
  simp [State.idleChannel, State.restOutput, State.clearLatches, State.clearTimer,
    State.chan_setOutput_ne _ h, State.chan_setLatches_ne _ h, State.chan_setTimer_ne _ h,
    State.chan_setEngine_ne _ h]

theorem State.chan_endRun_ne (s : State) (h : c ≠ d) (cause : RunEndCause) :
    (s.endRun c cause).chan d = s.chan d := by
  simp [State.endRun, State.chan_idleChannel_ne _ h]

theorem State.chan_faultChannel_ne (s : State) (h : c ≠ d) (cause : FaultCause) (k : Option Nat) :
    (s.faultChannel c cause k).chan d = s.chan d := by
  simp [State.faultChannel, State.restOutput, State.haltTimer, State.chan_setOutput_ne _ h,
    State.chan_setTimer_ne _ h, State.chan_setEngine_ne _ h]

/-! ### Flags -/

theorem State.chan_handChanges (s : State) (f : Chan → Operand → Bool) (d : Chan) :
    (s.handChanges f).chan d = s.chan d := by
  have key : ∀ (l : List Chan) (u : State),
      (l.foldl (fun u c => match (u.engine c).standing with
        | some q => if f c q.operand then u.hand (.operandChange c) else u
        | none => u) u).chan d = u.chan d := by
    intro l
    induction l with
    | nil => intro u; rfl
    | cons a l ih =>
      intro u
      rw [List.foldl_cons, ih]
      split
      · split <;> rfl
      · rfl
  exact key allChannels s

theorem State.chan_writeFlags (s : State) (flags : BitVec 8) (d : Chan) :
    (s.writeFlags flags).chan d = s.chan d := by
  unfold State.writeFlags
  exact State.chan_handChanges _ _ _

/-! ### Sequential advance -/

theorem State.chan_setLoops_ne (s : State) (h : c ≠ d) (l : List LoopRecord) :
    (s.setLoops c l).chan d = s.chan d := State.chan_setEngine_ne _ h _

theorem State.chan_goTo_ne (s : State) (h : c ≠ d) (k : Nat) : (s.goTo c k).chan d = s.chan d :=
  State.chan_setEngine_ne _ h _

theorem State.chan_loopTest_ne (h : c ≠ d) (i : Nat) : ∀ (turns : Nat) (s : State),
    (s.loopTest c i turns).2.chan d = s.chan d := by
  intro turns
  induction turns with
  | zero => intro s; rfl
  | succ n ih =>
    intro s
    unfold State.loopTest
    split
    · rfl
    · split
      · split
        · split
          · rw [ih, s.chan_setLoops_ne h]
          · exact s.chan_setLoops_ne h _
        · simp only
          split
          · rw [ih, State.chan_setLoops_ne _ h, s.chan_test_ne h]
          · exact s.chan_test_ne h _
      · rfl

theorem State.chan_advance_ne (s : State) (h : c ≠ d) : (s.advance c).1.chan d = s.chan d := by
  unfold State.advance
  simp only
  split
  · rw [State.chan_goTo_ne _ h, State.chan_loopTest_ne h]
  · rw [State.chan_faultChannel_ne _ h, State.chan_loopTest_ne h]

/-! ### Steps -/

theorem State.chan_executeStep_ne (s : State) (h : c ≠ d) :
    (s.executeStep c).1.chan d = s.chan d := by
  unfold State.executeStep
  split
  · exact s.chan_endRun_ne h _
  · unfold State.playStep
    split
    · exact s.chan_faultChannel_ne h _ _
    · exact s.chan_faultChannel_ne h _ _
    · exact s.chan_advance_ne h
    · simp [State.takeReference, State.markOutput, State.chan_setEngine_ne _ h,
        State.chan_setOutput_ne _ h]
  · unfold State.loopStep
    simp only
    split
    · exact s.chan_faultChannel_ne h _ _
    · split
      · exact s.chan_faultChannel_ne h _ _
      · split
        · exact s.chan_faultChannel_ne h _ _
        · rw [State.chan_goTo_ne _ h, s.chan_setLoops_ne h]
  · unfold State.branchStep
    split
    · exact s.chan_faultChannel_ne h _ _
    · simp only
      split
      · simp only
        split
        · rw [State.chan_goTo_ne _ h, State.chan_setLoops_ne _ h, s.chan_test_ne h]
        · rw [State.chan_goTo_ne _ h, s.chan_test_ne h]
      · rw [State.chan_advance_ne _ h, s.chan_test_ne h]
  · unfold State.callStep
    simp only
    split
    · exact s.chan_faultChannel_ne h _ _
    · split
      · exact s.chan_faultChannel_ne h _ _
      · exact State.chan_setEngine_ne _ h _
  · unfold State.returnStep
    simp only
    split
    · exact s.chan_faultChannel_ne h _ _
    · split
      · exact s.chan_faultChannel_ne h _ _
      · exact State.chan_setEngine_ne _ h _
  · unfold State.waitStep
    simp only
    split
    · rw [State.chan_advance_ne _ h, s.chan_test_ne h]
    · rw [State.chan_setEngine_ne _ h, s.chan_test_ne h]
  · rw [State.chan_advance_ne _ h]
    exact State.chan_setTimer_ne _ h _
  · unfold State.signalStep
    simp only
    rw [State.chan_advance_ne _ h]
    split <;> split <;> simp [State.chan_writeFlags]

theorem State.chan_takeSteps_ne (h : c ≠ d) : ∀ (n : Nat) (s : State),
    (s.takeSteps c n).chan d = s.chan d := by
  intro n
  induction n with
  | zero => intro s; rfl
  | succ n ih =>
    intro s
    unfold State.takeSteps
    simp only
    split
    · rw [ih, State.countStep, State.chan_setEngine_ne _ h, s.chan_executeStep_ne h]
    · exact s.chan_executeStep_ne h

theorem State.chan_stepEvent_ne (s : State) (h : c ≠ d) : (s.stepEvent c).chan d = s.chan d := by
  rw [State.stepEvent, State.chan_takeSteps_ne h]
  exact State.chan_setEngine_ne _ h _

theorem State.chan_advanceEvent_ne (s : State) (h : c ≠ d) :
    (s.advanceEvent c).chan d = s.chan d := by
  unfold State.advanceEvent
  have hb : (s.beginEvent c).chan d = s.chan d := State.chan_setEngine_ne _ h _
  simp only
  split
  · rw [State.chan_takeSteps_ne h, State.chan_advance_ne _ h, hb]
  · rw [State.chan_advance_ne _ h, hb]

theorem State.chan_startChannel_ne (s : State) (h : c ≠ d) :
    (s.startChannel c).chan d = s.chan d := by
  unfold State.startChannel
  simp only
  split
  · rw [State.beginEvent, State.chan_setEngine_ne _ h, State.chan_setEngine_ne _ h]
  · rw [State.chan_stepEvent_ne _ h, State.chan_setEngine_ne _ h]

/-! ### The run state -/

/-- The channel is in the run state it was in, or its run has ended. -/
def State.staysOrEnds (s t : State) (c : Chan) : Prop :=
  (t.engine c).run = (s.engine c).run ∨ (t.engine c).run = .idle ∨ (t.engine c).run = .faulted

theorem State.staysOrEnds_trans {s t u : State} (h : s.staysOrEnds t c) (k : t.staysOrEnds u c) :
    s.staysOrEnds u c := by
  unfold State.staysOrEnds at *
  rcases k with k | k | k
  · rw [k]; exact h
  · exact Or.inr (Or.inl k)
  · exact Or.inr (Or.inr k)

theorem State.staysOrEnds_of_eq {s t : State} (h : (t.engine c).run = (s.engine c).run) :
    s.staysOrEnds t c := Or.inl h

theorem State.staysOrEnds_endRun (s : State) (cause : RunEndCause) :
    s.staysOrEnds (s.endRun c cause) c :=
  Or.inr (Or.inl (by
    simp [State.endRun, State.idleChannel, State.restOutput, State.clearLatches, State.clearTimer,
      State.engine, Engine.toIdle, Engine.reset]))

theorem State.staysOrEnds_fault (s : State) (cause : FaultCause) (k : Option Nat) :
    s.staysOrEnds (s.faultChannel c cause k) c :=
  Or.inr (Or.inr (by
    simp [State.faultChannel, State.restOutput, State.haltTimer, State.engine, Engine.toFaulted]))

theorem State.run_test (s : State) (q : Condition) :
    ((s.test c q).2.engine c).run = (s.engine c).run := by
  unfold State.test
  split
  · rfl
  · split
    · cases q.operand <;> simp [State.consume, State.engine]
    · rfl

theorem State.run_loopTest (i : Nat) : ∀ (turns : Nat) (s : State),
    ((s.loopTest c i turns).2.engine c).run = (s.engine c).run := by
  intro turns
  induction turns with
  | zero => intro s; rfl
  | succ n ih =>
    intro s
    unfold State.loopTest
    split
    · rfl
    · split
      · split
        · split
          · rw [ih]; simp [State.setLoops, State.engine]
          · simp [State.setLoops, State.engine]
        · simp only
          split
          · rw [ih]
            simp only [State.setLoops, State.engine_setEngine_self]
            exact s.run_test _
          · exact s.run_test _
      · rfl

theorem State.staysOrEnds_advance (s : State) : s.staysOrEnds (s.advance c).1 c := by
  unfold State.advance
  simp only
  split
  · refine State.staysOrEnds_of_eq ?_
    simp only [State.goTo, State.engine_setEngine_self]
    exact State.run_loopTest _ _ _
  · exact State.staysOrEnds_trans (State.staysOrEnds_of_eq (State.run_loopTest _ _ _))
      (State.staysOrEnds_fault _ _ _)

theorem State.staysOrEnds_executeStep (s : State) : s.staysOrEnds (s.executeStep c).1 c := by
  unfold State.executeStep
  split
  · exact s.staysOrEnds_endRun _
  · unfold State.playStep
    split
    · exact s.staysOrEnds_fault _ _
    · exact s.staysOrEnds_fault _ _
    · exact s.staysOrEnds_advance
    · refine State.staysOrEnds_of_eq ?_
      simp [State.takeReference, State.markOutput, State.engine]
  · unfold State.loopStep
    simp only
    split
    · exact s.staysOrEnds_fault _ _
    · split
      · exact s.staysOrEnds_fault _ _
      · split
        · exact s.staysOrEnds_fault _ _
        · refine State.staysOrEnds_of_eq ?_
          simp [State.goTo, State.setLoops, State.engine]
  · unfold State.branchStep
    split
    · exact s.staysOrEnds_fault _ _
    · simp only
      split
      · refine State.staysOrEnds_of_eq ?_
        simp only [State.goTo, State.engine_setEngine_self]
        split
        · simp only [State.setLoops, State.engine_setEngine_self]
          exact s.run_test _
        · exact s.run_test _
      · exact State.staysOrEnds_trans (State.staysOrEnds_of_eq (s.run_test _))
          (State.staysOrEnds_advance _)
  · unfold State.callStep
    simp only
    split
    · exact s.staysOrEnds_fault _ _
    · split
      · exact s.staysOrEnds_fault _ _
      · exact State.staysOrEnds_of_eq (by simp)
  · unfold State.returnStep
    simp only
    split
    · exact s.staysOrEnds_fault _ _
    · split
      · exact s.staysOrEnds_fault _ _
      · exact State.staysOrEnds_of_eq (by simp)
  · unfold State.waitStep
    simp only
    split
    · exact State.staysOrEnds_trans (State.staysOrEnds_of_eq (s.run_test _))
        (State.staysOrEnds_advance _)
    · refine State.staysOrEnds_of_eq ?_
      simp only [State.engine_setEngine_self]
      exact s.run_test _
  · exact State.staysOrEnds_trans
      (State.staysOrEnds_of_eq (by simp [State.loadTimer, State.engine]))
      (State.staysOrEnds_advance _)
  · unfold State.signalStep
    simp only
    refine State.staysOrEnds_trans (State.staysOrEnds_of_eq ?_) (State.staysOrEnds_advance _)
    split <;> split <;> simp [State.engine, State.chan_writeFlags]

theorem State.staysOrEnds_takeSteps : ∀ (n : Nat) (s : State),
    s.staysOrEnds (s.takeSteps c n) c := by
  intro n
  induction n with
  | zero => intro s; exact State.staysOrEnds_of_eq rfl
  | succ n ih =>
    intro s
    unfold State.takeSteps
    simp only
    split
    · refine State.staysOrEnds_trans s.staysOrEnds_executeStep
        (State.staysOrEnds_trans (State.staysOrEnds_of_eq ?_) (ih _))
      simp [State.countStep]
    · exact s.staysOrEnds_executeStep

/-- R84: a channel that starts is ARMED no more. -/
theorem State.run_startChannel (s : State) : ((s.startChannel c).engine c).run ≠ .armed := by
  unfold State.startChannel
  simp only
  split
  · simp [State.beginEvent]
  · unfold State.stepEvent
    have h := State.staysOrEnds_takeSteps (c := c) Config.stepsPerEvent
      ((s.setEngine c { s.engine c with run := .running, start := none }).beginEvent c)
    rcases h with h | h | h
    · rw [h]; simp [State.beginEvent]
    · rw [h]; simp
    · rw [h]; simp

end Sys2Proof.Machine
end

