-- ==== Sys2Proof/Laws/GoingOn.lean ====
section
/-!
SUPPORT. Channels that start and channels that go on, said once: where a pause reason, a hold or a start
condition lets a channel go, the state that follows is the one that `State.StartsTo` and `State.GoesOnTo`
describe, and no other channel changes.
-/
namespace Sys2Proof.Machine

variable {s : State} {c : Chan}

/-- R84: what the start of an ARMED channel answers. -/
theorem State.startsTo_startChannel (s : State) (c : Chan) : s.StartsTo c (s.startChannel c) := by
  refine ⟨fun h => ?_, fun h1 h2 => by simp [State.startChannel, h1, h2]⟩
  unfold State.startChannel
  simp only
  rw [if_pos (by simpa using h)]
  simp only [State.beginEvent, State.setEngine_setEngine, State.engine_setEngine_self]

/-- R84: a start test that is true lets the channel start. -/
theorem State.startTest_true {q : Condition} (hr : (s.engine c).run = .armed)
    (hh : (s.engine c).held = false) (hq : (s.engine c).start = some q)
    (ht : s.operand c q.operand ≠ q.negated) : s.startTest c = (s.tested c q).startChannel c := by
  unfold State.startTest
  simp [hr, hh, hq, State.test_true ht]

/-- R84: a start test that is false changes nothing. -/
theorem State.startTest_false {q : Condition} (hr : (s.engine c).run = .armed)
    (hh : (s.engine c).held = false) (hq : (s.engine c).start = some q)
    (ht : s.operand c q.operand = q.negated) : s.startTest c = s := by
  unfold State.startTest
  simp [hr, hh, hq, State.test_false ht]

/-- R84: a channel that is held makes no start test. -/
theorem State.startTest_held (hh : (s.engine c).held = true) : s.startTest c = s := by
  unfold State.startTest
  simp [hh]

/-- R85, R98, R106: a RUNNING channel that is not held goes on. -/
theorem State.goesOnTo_goOn (hr : (s.engine c).run = .running) (hh : (s.engine c).held = false) :
    s.GoesOnTo c (s.goOn c) := by
  refine ⟨fun h => ?_, fun h => by simp [State.goOn, hr, hh, h], fun q out h => ⟨fun ht => ?_, fun ht => ?_⟩⟩
  · simp only [State.playOf] at h
    unfold State.goOn
    cases ha : (s.engine c).activity <;> simp [ha, Activity.playRecord?] at h <;> simp [hr, hh]
  · simp [State.goOn, State.releaseTest, hr, hh, h, State.test_false ht]
  · simp only [State.goOn, State.releaseTest, hr, hh, h, State.test_true ht, if_true]
    rfl

/-- R141: a RUNNING channel that is held does not go on. -/
theorem State.goOn_held (hh : (s.engine c).held = true) : s.goOn c = s := by
  unfold State.goOn
  simp [hh]

/-- R98: a release test changes its own channel alone. -/
theorem State.chan_goOn_ne {d : Chan} (s : State) (h : c ≠ d) : (s.goOn c).chan d = s.chan d := by
  unfold State.goOn
  split
  · unfold State.releaseTest
    split
    · simp only
      split
      · rw [State.chan_advanceEvent_ne _ h, s.chan_test_ne h]
      · exact s.chan_test_ne h _
    · rfl
  · exact s.chan_stepEvent_ne h
  · rfl

/-! ### Pause reasons that change (R105, R106) -/

/-- R106: a RUNNING channel with a reason set is PAUSED. -/
theorem State.pauseChanged_set (hr : (s.engine c).run = .running)
    (hp : (s.engine c).requestPause = true ∨ (s.engine c).linePause = true) :
    s.pauseChanged c = s.setEngine c { s.engine c with run := .paused } := by
  unfold State.pauseChanged
  simp [hr, show ((s.engine c).requestPause || (s.engine c).linePause) = true by simpa using hp]

/-- R106: a PAUSED channel with no reason set is RUNNING, and goes on unless it is held. -/
theorem State.pauseChanged_clear (hr : (s.engine c).run = .paused)
    (hp : ¬((s.engine c).requestPause = true ∨ (s.engine c).linePause = true)) :
    let t := s.setEngine c { s.engine c with run := .running }
    ((s.engine c).held = true → s.pauseChanged c = t) ∧
      ((s.engine c).held = false → t.GoesOnTo c (s.pauseChanged c)) := by
  intro t
  have hn : ((s.engine c).requestPause || (s.engine c).linePause) = false := by
    rw [Bool.eq_false_iff, ne_eq, Bool.or_eq_true]; exact hp
  have h : s.pauseChanged c = t.goOn c := by
    unfold State.pauseChanged
    simp only [hr, hn, t]
  rw [h]
  refine ⟨fun hh => State.goOn_held (by simpa [t] using hh), fun hh => State.goesOnTo_goOn ?_ ?_⟩
  · simp [t]
  · simpa [t] using hh

/-- R106: in any other case nothing changes. -/
theorem State.pauseChanged_same
    (h1 : ¬((s.engine c).run = .running ∧
      ((s.engine c).requestPause = true ∨ (s.engine c).linePause = true)))
    (h2 : ¬((s.engine c).run = .paused ∧
      ¬((s.engine c).requestPause = true ∨ (s.engine c).linePause = true))) :
    s.pauseChanged c = s := by
  unfold State.pauseChanged
  simp only
  split
  · rename_i hr hp; exact absurd ⟨hr, Bool.or_eq_true _ _ ▸ hp⟩ h1
  · rename_i hr hp
    exact absurd ⟨hr, fun h => absurd ((Bool.or_eq_true _ _).mpr h) (by rw [hp]; decide)⟩ h2
  · rfl

end Sys2Proof.Machine
end

