-- ==== Sys2Proof/Laws/Sparse.lean ====
section
/-!
SUPPORT. What the operations of a sparse store do: reading after writing, and that each keeps the
canonical form. The same for the writing of bytes into sample memory.
-/
namespace Sys2Proof.Machine

variable {α : Type}

/-! ### Reading after writing -/

@[simp] theorem Sparse.find_put_self (m : List (Nat × α)) (k : Nat) (v : α) :
    Sparse.find (Sparse.put m k v) k = some v := by
  induction m with
  | nil => simp [Sparse.put, Sparse.find]
  | cons e m ih =>
    obtain ⟨j, w⟩ := e
    by_cases h1 : k < j
    · simp [Sparse.put, h1, Sparse.find]
    · by_cases h2 : k = j
      · simp [Sparse.put, h2, Sparse.find]
      · have h3 : j ≠ k := fun e => h2 e.symm
        simp [Sparse.put, h1, h2, Sparse.find, h3, ih]

theorem Sparse.find_put_ne (m : List (Nat × α)) {k i : Nat} (h : i ≠ k) (v : α) :
    Sparse.find (Sparse.put m k v) i = Sparse.find m i := by
  have h' : k ≠ i := fun e => h e.symm
  induction m with
  | nil => simp [Sparse.put, Sparse.find, h']
  | cons e m ih =>
    obtain ⟨j, w⟩ := e
    by_cases h1 : k < j
    · simp [Sparse.put, h1, Sparse.find, h']
    · by_cases h2 : k = j
      · subst h2; simp [Sparse.put, Sparse.find, h']
      · simp [Sparse.put, h1, h2, Sparse.find, ih]

/-- What is found at a key stands in the list. -/
theorem Sparse.mem_of_find {m : List (Nat × α)} {k : Nat} {v : α} (h : Sparse.find m k = some v) :
    (k, v) ∈ m := by
  induction m with
  | nil => simp [Sparse.find] at h
  | cons e m ih =>
    obtain ⟨j, w⟩ := e
    unfold Sparse.find at h
    split at h
    · rename_i hj
      rw [hj, Option.some.inj h]
      exact List.mem_cons_self ..
    · exact List.mem_cons_of_mem _ (ih h)

theorem Sparse.find_erase_ne (m : List (Nat × α)) {k i : Nat} (h : i ≠ k) :
    Sparse.find (Sparse.erase m k) i = Sparse.find m i := by
  have h' : k ≠ i := fun e => h e.symm
  induction m with
  | nil => rfl
  | cons e m ih =>
    obtain ⟨j, w⟩ := e
    by_cases h2 : j = k
    · subst h2; simp [Sparse.erase, Sparse.find, h']
    · simp [Sparse.erase, h2, Sparse.find, ih]

/-- A bound below every key: a smaller key is not listed. -/
theorem Sparse.find_none_of_risingFrom (m : List (Nat × α)) {low k : Nat}
    (hr : Sparse.risingFrom (some low) m = true) (hk : k ≤ low) : Sparse.find m k = none := by
  induction m generalizing low with
  | nil => rfl
  | cons e m ih =>
    obtain ⟨j, w⟩ := e
    simp only [Sparse.risingFrom, Bool.and_eq_true, decide_eq_true_eq] at hr
    have h1 : j ≠ k := by omega
    simp only [Sparse.find, h1, if_false]
    exact ih hr.2 (by omega)

theorem Sparse.risingFrom_of_le (m : List (Nat × α)) {a b : Nat} (h : a ≤ b)
    (hr : Sparse.risingFrom (some b) m = true) : Sparse.risingFrom (some a) m = true := by
  cases m with
  | nil => rfl
  | cons e m =>
    simp only [Sparse.risingFrom, Bool.and_eq_true, decide_eq_true_eq] at hr ⊢
    exact ⟨by omega, hr.2⟩

theorem Sparse.find_erase_self (m : List (Nat × α)) (k : Nat) (hr : Sparse.rising m = true) :
    Sparse.find (Sparse.erase m k) k = none := by
  have main : ∀ (m : List (Nat × α)) (low : Option Nat), Sparse.risingFrom low m = true →
      Sparse.find (Sparse.erase m k) k = none := by
    intro m
    induction m with
    | nil => intro low _; rfl
    | cons e m ih =>
      obtain ⟨j, w⟩ := e
      intro low h
      have h2 : Sparse.risingFrom (some j) m = true := by
        cases low with
        | none => exact h
        | some l =>
          simp only [Sparse.risingFrom, Bool.and_eq_true] at h
          exact h.2
      by_cases hj : j = k
      · subst hj
        simp only [Sparse.erase, if_true]
        exact Sparse.find_none_of_risingFrom m h2 (Nat.le_refl j)
      · simp only [Sparse.erase, hj, if_false, Sparse.find]
        exact ih _ h2
  exact main m none hr

/-! ### The canonical form is kept -/

theorem Sparse.risingFrom_put (m : List (Nat × α)) (low : Nat) (k : Nat) (v : α)
    (hr : Sparse.risingFrom (some low) m = true) (hk : low < k) :
    Sparse.risingFrom (some low) (Sparse.put m k v) = true := by
  induction m generalizing low with
  | nil => simp [Sparse.put, Sparse.risingFrom, hk]
  | cons e m ih =>
    obtain ⟨j, w⟩ := e
    simp only [Sparse.risingFrom, Bool.and_eq_true, decide_eq_true_eq] at hr
    by_cases h1 : k < j
    · simp [Sparse.put, h1, Sparse.risingFrom, hk, hr.2]
    · by_cases h2 : k = j
      · subst h2; simp [Sparse.put, Sparse.risingFrom, hr.1, hr.2]
      · simp only [Sparse.put, h1, if_false, h2, Sparse.risingFrom, Bool.and_eq_true,
          decide_eq_true_eq]
        exact ⟨hr.1, ih j hr.2 (by omega)⟩

theorem Sparse.rising_put (m : List (Nat × α)) (k : Nat) (v : α) (hr : Sparse.rising m = true) :
    Sparse.rising (Sparse.put m k v) = true := by
  cases m with
  | nil => rfl
  | cons e m =>
    obtain ⟨j, w⟩ := e
    have hr' : Sparse.risingFrom (some j) m = true := hr
    by_cases h1 : k < j
    · simp [Sparse.put, h1, Sparse.rising, Sparse.risingFrom, hr']
    · by_cases h2 : k = j
      · subst h2; simpa [Sparse.put, Sparse.rising, Sparse.risingFrom] using hr'
      · simp only [Sparse.put, h1, if_false, h2, Sparse.rising, Sparse.risingFrom]
        exact Sparse.risingFrom_put m j k v hr' (by omega)

theorem Sparse.risingFrom_erase (m : List (Nat × α)) (low k : Nat)
    (hr : Sparse.risingFrom (some low) m = true) :
    Sparse.risingFrom (some low) (Sparse.erase m k) = true := by
  induction m generalizing low with
  | nil => rfl
  | cons e m ih =>
    obtain ⟨j, w⟩ := e
    simp only [Sparse.risingFrom, Bool.and_eq_true, decide_eq_true_eq] at hr
    by_cases h : j = k
    · simp only [Sparse.erase, h, if_true]
      exact Sparse.risingFrom_of_le m (by omega) hr.2
    · simp only [Sparse.erase, h, if_false, Sparse.risingFrom, Bool.and_eq_true,
        decide_eq_true_eq]
      exact ⟨hr.1, ih j hr.2⟩

theorem Sparse.rising_of_risingFrom (m : List (Nat × α)) {low : Nat}
    (hr : Sparse.risingFrom (some low) m = true) : Sparse.rising m = true := by
  cases m with
  | nil => rfl
  | cons e m =>
    simp only [Sparse.risingFrom, Bool.and_eq_true] at hr
    exact hr.2

theorem Sparse.rising_erase (m : List (Nat × α)) (k : Nat) (hr : Sparse.rising m = true) :
    Sparse.rising (Sparse.erase m k) = true := by
  cases m with
  | nil => rfl
  | cons e m =>
    obtain ⟨j, w⟩ := e
    have hr' : Sparse.risingFrom (some j) m = true := hr
    by_cases h : j = k
    · simp only [Sparse.erase, h, if_true]
      exact Sparse.rising_of_risingFrom m hr'
    · simp only [Sparse.erase, h, if_false, Sparse.rising, Sparse.risingFrom]
      exact Sparse.risingFrom_erase m j k hr'

/-- What an entry of a store is after a datum has been listed. -/
theorem Sparse.mem_put (m : List (Nat × α)) (k : Nat) (v : α) {e : Nat × α}
    (h : e ∈ Sparse.put m k v) : e = (k, v) ∨ e ∈ m := by
  induction m with
  | nil => simpa [Sparse.put] using h
  | cons x m ih =>
    obtain ⟨j, w⟩ := x
    by_cases h1 : k < j
    · simpa [Sparse.put, h1] using h
    · by_cases h2 : k = j
      · subst h2
        simp only [Sparse.put, Nat.lt_irrefl, if_false, if_true, List.mem_cons] at h
        rcases h with h | h
        · exact Or.inl h
        · exact Or.inr (List.mem_cons_of_mem _ h)
      · simp only [Sparse.put, h1, if_false, h2, List.mem_cons] at h
        rcases h with h | h
        · exact Or.inr (h ▸ List.mem_cons_self)
        · rcases ih h with h | h
          · exact Or.inl h
          · exact Or.inr (List.mem_cons_of_mem _ h)

theorem Sparse.mem_erase (m : List (Nat × α)) (k : Nat) {e : Nat × α}
    (h : e ∈ Sparse.erase m k) : e ∈ m := by
  induction m with
  | nil => exact h
  | cons x m ih =>
    obtain ⟨j, w⟩ := x
    by_cases h1 : j = k
    · simp only [Sparse.erase, h1, if_true] at h
      exact List.mem_cons_of_mem _ h
    · simp only [Sparse.erase, h1, if_false, List.mem_cons] at h
      rcases h with h | h
      · exact h ▸ List.mem_cons_self
      · exact List.mem_cons_of_mem _ (ih h)

/-- Writing keeps the canonical form of a store where an unlisted key holds `d`. -/
theorem Sparse.canonical_set [DecidableEq α] (d : α) (m : List (Nat × α)) (k : Nat) (v : α)
    (h : Sparse.canonical d m = true) : Sparse.canonical d (Sparse.set d m k v) = true := by
  simp only [Sparse.canonical, Bool.and_eq_true, List.all_eq_true, decide_eq_true_eq] at h ⊢
  by_cases hv : v = d
  · simp only [Sparse.set, hv, if_true]
    exact ⟨Sparse.rising_erase m k h.1, fun e he => h.2 e (Sparse.mem_erase m k he)⟩
  · simp only [Sparse.set, hv, if_false]
    refine ⟨Sparse.rising_put m k v h.1, fun e he => ?_⟩
    rcases Sparse.mem_put m k v he with h1 | h1
    · simpa [h1] using hv
    · exact h.2 e h1

/-- Reading the key just written. -/
theorem Sparse.get_set_self [DecidableEq α] (d : α) (m : List (Nat × α)) (k : Nat) (v : α)
    (hr : Sparse.rising m = true) : Sparse.get d (Sparse.set d m k v) k = v := by
  by_cases hv : v = d
  · simp [Sparse.get, Sparse.set, hv, Sparse.find_erase_self m k hr]
  · simp [Sparse.get, Sparse.set, hv]

/-- Reading any other key. -/
theorem Sparse.get_set_ne [DecidableEq α] (d : α) (m : List (Nat × α)) {k i : Nat} (h : i ≠ k)
    (v : α) : Sparse.get d (Sparse.set d m k v) i = Sparse.get d m i := by
  by_cases hv : v = d
  · simp [Sparse.get, Sparse.set, hv, Sparse.find_erase_ne m h]
  · simp [Sparse.get, Sparse.set, hv, Sparse.find_put_ne m h]

/-- Nothing leaves a store that does not list the key. -/
theorem Sparse.erase_of_find_none (m : List (Nat × α)) {k : Nat} (h : Sparse.find m k = none) :
    Sparse.erase m k = m := by
  induction m with
  | nil => rfl
  | cons e m ih =>
    obtain ⟨j, w⟩ := e
    unfold Sparse.find at h
    unfold Sparse.erase
    split at h
    · exact absurd h (by simp)
    · rename_i hj; rw [if_neg hj, ih h]

/-- A datum that is listed and then taken off leaves the store without the key. -/
theorem Sparse.erase_put_self (m : List (Nat × α)) (k : Nat) (v : α) (hr : Sparse.rising m = true) :
    Sparse.erase (Sparse.put m k v) k = Sparse.erase m k := by
  induction m with
  | nil => simp [Sparse.put, Sparse.erase]
  | cons e m ih =>
    obtain ⟨j, w⟩ := e
    have hf : Sparse.risingFrom (some j) m = true := hr
    unfold Sparse.put
    split
    · rename_i hk
      have : Sparse.find ((j, w) :: m) k = none := by
        unfold Sparse.find
        rw [if_neg (by omega)]
        exact Sparse.find_none_of_risingFrom m hf (by omega)
      rw [Sparse.erase_of_find_none _ this]
      simp [Sparse.erase]
    · split
      · rename_i hk; subst hk; simp [Sparse.erase]
      · rename_i hk
        have hj : j ≠ k := fun e => hk e.symm
        simp only [Sparse.erase, if_neg hj, ih (Sparse.rising_of_risingFrom m hf)]

/-- A write of what an unlisted key holds undoes the write before it at that key. -/
theorem Sparse.set_set_default [DecidableEq α] (d : α) (m : List (Nat × α)) (k : Nat) (v : α)
    (hr : Sparse.rising m = true) : Sparse.set d (Sparse.set d m k v) k d = Sparse.set d m k d := by
  simp only [Sparse.set, if_true]
  split
  · exact Sparse.erase_of_find_none _ (Sparse.find_erase_self m k hr)
  · exact Sparse.erase_put_self m k v hr

/-! ### Rising keys, said of pairs -/

theorem Sparse.risingFrom_iff (m : List (Nat × α)) (low : Nat) :
    Sparse.risingFrom (some low) m = true ↔
      (∀ e ∈ m, low < e.1) ∧ m.Pairwise fun a b => a.1 < b.1 := by
  induction m generalizing low with
  | nil => simp [Sparse.risingFrom]
  | cons e m ih =>
    obtain ⟨j, w⟩ := e
    simp only [Sparse.risingFrom, Bool.and_eq_true, decide_eq_true_eq, ih, List.mem_cons,
      List.pairwise_cons]
    constructor
    · rintro ⟨h1, h2, h3⟩
      refine ⟨?_, h2, h3⟩
      rintro e (rfl | he)
      · exact h1
      · exact Nat.lt_trans h1 (h2 e he)
    · rintro ⟨h1, h2, h3⟩
      exact ⟨h1 _ (Or.inl rfl), h2, h3⟩

theorem Sparse.rising_iff (m : List (Nat × α)) :
    Sparse.rising m = true ↔ m.Pairwise fun a b => a.1 < b.1 := by
  cases m with
  | nil => simp [Sparse.rising, Sparse.risingFrom]
  | cons e m =>
    obtain ⟨j, w⟩ := e
    simp only [Sparse.rising, Sparse.risingFrom, Sparse.risingFrom_iff, List.pairwise_cons]

/-! ### Sample memory -/

theorem Memory.mem_cells (a : Nat) (bs : List Byte) {c : Host.Cell} (h : c ∈ Memory.cells a bs) :
    a ≤ c.1 ∧ c.1 < a + bs.length := by
  induction bs generalizing a with
  | nil => simp [Memory.cells] at h
  | cons b bs ih =>
    simp only [Memory.cells, List.mem_cons] at h
    rcases h with h | h
    · subst h; simp
    · have := ih (a + 1) h
      simp only [List.length_cons]
      omega

theorem Memory.pairwise_cells (a : Nat) (bs : List Byte) :
    (Memory.cells a bs).Pairwise fun x y => x.1 < y.1 := by
  induction bs generalizing a with
  | nil => simp [Memory.cells]
  | cons b bs ih =>
    simp only [Memory.cells, List.pairwise_cons]
    exact ⟨fun c hc => (Memory.mem_cells (a + 1) bs hc).1, ih (a + 1)⟩

/-- Writing bytes that lie in the memory keeps its canonical form. -/
theorem Memory.wf_write (m : Memory) (a : Nat) (bs : List Byte) (h : Memory.wf m = true)
    (hb : a + bs.length ≤ 16777216) : Memory.wf (Memory.write m a bs) = true := by
  simp only [Memory.wf, Bool.and_eq_true, Sparse.rising_iff, List.all_eq_true,
    decide_eq_true_eq] at h ⊢
  constructor
  · simp only [Memory.write, List.pairwise_append, List.mem_append, List.mem_filter,
      decide_eq_true_eq]
    refine ⟨⟨h.1.filter _, Memory.pairwise_cells a bs, ?_⟩, h.1.filter _, ?_⟩
    · rintro x ⟨_, hx⟩ y hy
      have := (Memory.mem_cells a bs hy).1
      omega
    · rintro x hx y ⟨_, hy⟩
      rcases hx with ⟨_, hx⟩ | hx
      · omega
      · have := (Memory.mem_cells a bs hx).2
        omega
  · intro c hc
    simp only [Memory.write, List.mem_append, List.mem_filter] at hc
    rcases hc with (hc | hc) | hc
    · exact h.2 c hc.1
    · have := (Memory.mem_cells a bs hc).2
      omega
    · exact h.2 c hc.1

theorem Sparse.find_append (m n : List (Nat × α)) (k : Nat) :
    Sparse.find (m ++ n) k = (Sparse.find m k).or (Sparse.find n k) := by
  induction m with
  | nil => simp [Sparse.find]
  | cons e m ih =>
    obtain ⟨j, w⟩ := e
    by_cases h : j = k
    · simp [Sparse.find, h]
    · simp [Sparse.find, h, ih]

theorem Sparse.find_filter (m : List (Nat × α)) (p : Nat → Bool) (k : Nat) :
    Sparse.find (m.filter fun c => p c.1) k = if p k then Sparse.find m k else none := by
  induction m with
  | nil => simp [Sparse.find]
  | cons e m ih =>
    obtain ⟨j, w⟩ := e
    by_cases h : j = k
    · subst h
      by_cases hp : p j <;> simp [Sparse.find, hp, ih]
    · by_cases hp : p j <;> simp [Sparse.find, hp, ih, h]

theorem Memory.find_cells (a : Nat) (bs : List Byte) (k : Nat) :
    Sparse.find (Memory.cells a bs) k = if a ≤ k then bs[k - a]? else none := by
  induction bs generalizing a with
  | nil => simp [Memory.cells, Sparse.find]
  | cons b bs ih =>
    by_cases h : a = k
    · simp [Memory.cells, Sparse.find, h]
    · simp only [Memory.cells, Sparse.find, h, if_false, ih]
      by_cases h1 : a ≤ k
      · have e : k - a = (k - (a + 1)) + 1 := by omega
        simp only [h1, if_true, e, List.getElem?_cons_succ]
        simp [show a + 1 ≤ k by omega]
      · simp [h1, show ¬ a + 1 ≤ k by omega]

/-- Reading after a write: the byte written within the written bytes, and the former one elsewhere. -/
theorem Memory.find_write (m : Memory) (a : Nat) (bs : List Byte) (k : Nat) :
    Sparse.find (Memory.write m a bs) k =
      if a ≤ k ∧ k < a + bs.length then bs[k - a]? else Sparse.find m k := by
  simp only [Memory.write, Sparse.find_append,
    Sparse.find_filter m (fun j => decide (j < a)),
    Sparse.find_filter m (fun j => decide (a + bs.length ≤ j)), Memory.find_cells]
  by_cases h1 : k < a
  · have h2 : ¬ a ≤ k := by omega
    have h3 : ¬ a + bs.length ≤ k := by omega
    simp [h1, h2, h3]
  · have h2 : a ≤ k := by omega
    by_cases h3 : k < a + bs.length
    · have h4 : ¬ a + bs.length ≤ k := by omega
      simp [h1, h2, h3, h4]
    · have h4 : a + bs.length ≤ k := by omega
      have h5 : bs.length ≤ k - a := by omega
      simp [h1, h2, h3, h4, List.getElem?_eq_none h5]

end Sys2Proof.Machine
end

