-- ==== Sys2Proof/Laws/Images.lean ====
section
/-!
SUPPORT. Handles, pages and serials: what a handle and a byte read as after a write, what the written-page
set holds, and that the serial given is the first that no live image has.
-/
namespace Sys2Proof.Machine

/-! ### Handles -/

theorem State.handle_setHandle_self (s : State) (h : Nat) {r : HandleRecord}
    (hr : r ≠ HandleRecord.empty) : (s.setHandle h r).handle h = r := by
  simp [State.handle, State.setHandle, Sparse.set, hr, Sparse.get]

theorem State.handle_setHandle_ne (s : State) {h k : Nat} (hk : k ≠ h) (r : HandleRecord) :
    (s.setHandle h r).handle k = s.handle k :=
  Sparse.get_set_ne _ _ hk _

/-! ### Pages -/

theorem Image.pageContents_length (i : Image) (k : Nat) (xs : List Byte) :
    (i.pageContents k xs).length = 512 := by
  simp [Image.pageContents]

/-- R4: the bytes stored for a page, position by position. -/
theorem Image.pageContents_getD (i : Image) (k : Nat) (xs : List Byte) {o : Nat} (ho : o < 512) :
    (i.pageContents k xs).getD o 0 = if o < i.dataBytes k then xs.getD o 0xFF else 0 := by
  simp [Image.pageContents, List.getD, ho]

/-- R10: every byte after data for a page has been stored. -/
theorem State.storedByte_storePage (s : State) (p : Nat) {bs : List Byte} (hb : bs.length = 512)
    (a : Nat) : (s.storePage p bs).storedByte a =
      if 512 * p ≤ a ∧ a < 512 * p + 512 then bs.getD (a - 512 * p) 0 else s.storedByte a := by
  unfold State.storePage State.storedByte
  simp only [Memory.find_write, hb]
  split
  · have : a - 512 * p < bs.length := by omega
    simp [List.getD, this]
  · rfl

/-- R10: every check word after data for a page has been stored. -/
theorem State.checkWord_storePage (s : State) (p : Nat) (bs : List Byte) (q : Nat) :
    (s.storePage p bs).checkWord q = if q = p then crc bs else s.checkWord q := by
  by_cases h : q = p
  · subst h; simp [State.checkWord, State.storePage]
  · simp [State.checkWord, State.storePage, Sparse.find_put_ne _ h, h]

/-- R2: a page that has received data holds the data's bytes. -/
theorem State.pageBytes_storePage (s : State) (p : Nat) {bs : List Byte} (hb : bs.length = 512) :
    (s.storePage p bs).pageBytes p = bs := by
  apply List.ext_getElem
  · simp [State.pageBytes, hb]
  · intro n h1 h2
    simp only [State.pageBytes, List.getElem_map, List.getElem_range,
      State.storedByte_storePage _ _ hb]
    rw [if_pos (by omega)]
    simp [List.getD, h2]

/-- R2: the bytes of sample codes, low byte first. -/
theorem bytesOfHalves_getD (xs : List Half) : ∀ o,
    (bytesOfHalves xs).getD o 0 = (xs.getD (o / 2) 0).extractLsb' (8 * (o % 2)) 8 := by
  induction xs with
  | nil => intro o; simp [bytesOfHalves]
  | cons x xs ih =>
    intro o
    simp only [bytesOfHalves, List.flatMap_cons, bytesOfHalf] at ih ⊢
    match o with
    | 0 => simp
    | 1 => simp
    | o + 2 =>
      have := ih o
      simp only [List.cons_append, List.nil_append, List.getD_cons_succ]
      rw [this, show (o + 2) / 2 = o / 2 + 1 by omega, show (o + 2) % 2 = o % 2 by omega]
      simp

/-! ### The written-page set (R21, R22) -/

theorem mem_insertIndex (k : Nat) (w : List Nat) : ∀ j, j ∈ insertIndex k w ↔ j = k ∨ j ∈ w := by
  induction w with
  | nil => simp [insertIndex]
  | cons a w ih =>
    intro j
    unfold insertIndex
    split
    · simp
    · split
      · subst_vars; simp
      · simp only [List.mem_cons, ih]
        constructor
        · rintro (h | h | h) <;> simp [h]
        · rintro (h | h | h) <;> simp [h]

theorem pairwise_insertIndex (k : Nat) (w : List Nat) (h : w.Pairwise (· < ·)) :
    (insertIndex k w).Pairwise (· < ·) := by
  induction w with
  | nil => simp [insertIndex]
  | cons a w ih =>
    have h' := List.pairwise_cons.mp h
    unfold insertIndex
    split
    · rename_i hk
      refine List.pairwise_cons.mpr ⟨fun b hb => ?_, h⟩
      rcases List.mem_cons.mp hb with rfl | hb
      · exact hk
      · exact Nat.lt_trans hk (h'.1 b hb)
    · split
      · exact h
      · refine List.pairwise_cons.mpr ⟨fun b hb => ?_, ih h'.2⟩
        rcases (mem_insertIndex k w b).mp hb with rfl | hb
        · omega
        · exact h'.1 b hb

theorem le_lowestMissing : ∀ (w : List Nat) (k : Nat), k ≤ lowestMissing k w := by
  intro w
  induction w with
  | nil => intro k; exact Nat.le_refl _
  | cons a w ih =>
    intro k
    unfold lowestMissing
    split
    · exact Nat.le_trans (Nat.le_succ k) (ih (k + 1))
    · exact Nat.le_refl _

/-- R22: what the lowest missing page index is, of a set in ascending order. -/
theorem lowestMissing_eq : ∀ (w : List Nat) (k m : Nat), w.Pairwise (· < ·) → (∀ a ∈ w, k ≤ a) →
    k ≤ m → m ∉ w → (∀ j, k ≤ j → j < m → j ∈ w) → lowestMissing k w = m := by
  intro w
  induction w with
  | nil =>
    intro k m _ _ hk _ hj
    by_contra h
    have hlt : k < m := by unfold lowestMissing at h; omega
    exact absurd (hj k (Nat.le_refl _) hlt) (by simp)
  | cons a w ih =>
    intro k m hw ha hk hm hj
    have hw' := List.pairwise_cons.mp hw
    unfold lowestMissing
    split
    · rename_i he
      subst he
      have hne : a ≠ m := fun e => hm (e ▸ List.mem_cons_self ..)
      refine ih (a + 1) m hw'.2 (fun b hb => hw'.1 b hb) (by omega)
        (fun h => hm (List.mem_cons_of_mem _ h)) fun j h1 h2 => ?_
      rcases List.mem_cons.mp (hj j (by omega) h2) with h | h
      · omega
      · exact h
    · rename_i he
      by_contra hne
      rcases List.mem_cons.mp (hj k (Nat.le_refl _) (by omega)) with h | h
      · exact he h.symm
      · have := hw'.1 _ h
        have := ha a (List.mem_cons_self ..)
        omega

/-- R22: no page below a count is missing from a set in ascending order that has them all. -/
theorem le_lowestMissing_of_all (w : List Nat) (n : Nat) (hw : w.Pairwise (· < ·))
    (h : ∀ j, j < n → j ∈ w) : n ≤ lowestMissing 0 w := by
  have key : ∀ (w : List Nat) (k : Nat), w.Pairwise (· < ·) → (∀ a ∈ w, k ≤ a) →
      (∀ j, k ≤ j → j < n → j ∈ w) → k ≤ n → n ≤ lowestMissing k w := by
    intro w
    induction w with
    | nil =>
      intro k _ _ hj hk
      by_contra hc
      exact absurd (hj k (Nat.le_refl _) (by unfold lowestMissing at hc; omega)) (by simp)
    | cons a w ih =>
      intro k hw ha hj hk
      have hw' := List.pairwise_cons.mp hw
      unfold lowestMissing
      split
      · rename_i he
        subst he
        by_cases hn : n ≤ a
        · exact Nat.le_trans hn (Nat.le_trans (Nat.le_succ a) (le_lowestMissing w (a + 1)))
        · refine ih (a + 1) hw'.2 (fun b hb => hw'.1 b hb) (fun j h1 h2 => ?_) (by omega)
          rcases List.mem_cons.mp (hj j (by omega) h2) with h | h
          · omega
          · exact h
      · rename_i he
        by_contra hc
        rcases List.mem_cons.mp (hj k (Nat.le_refl _) (by omega)) with h | h
        · exact he h.symm
        · have := hw'.1 _ h
          have := ha a (List.mem_cons_self ..)
          omega
  exact key w 0 hw (fun _ _ => Nat.zero_le _) (fun j _ => h j) (Nat.zero_le _)

/-! ### Guards and references -/

/-- R25, R49: an extent is kept where some slot holds a KEEP range that has one of its pages. -/
theorem GuardTable.keeps_iff (g : GuardTable) (first count : Nat) :
    g.keeps first count = true ↔ ∃ (k : Fin 8) (r : GuardRange), g.slots[k] = some r ∧
      r.mode = .keep ∧ r.first < first + count ∧ first ≤ r.last := by
  unfold GuardTable.keeps GuardTable.ranges
  simp only [List.any_eq_true, List.mem_filter, List.mem_filterMap, id, GuardRange.meets,
    decide_eq_true_eq, Bool.and_eq_true]
  constructor
  · rintro ⟨r, ⟨⟨x, hx, rfl⟩, hm⟩, h1, h2⟩
    obtain ⟨k, hk, he⟩ := List.getElem_of_mem hx
    exact ⟨⟨k, by simpa using hk⟩, r, by simpa using he, hm, h1, h2⟩
  · rintro ⟨k, r, hk, hm, h1, h2⟩
    refine ⟨r, ⟨⟨some r, ?_, rfl⟩, hm⟩, h1, h2⟩
    rw [← hk]
    simp

/-- R29, R32: what the release of a handle writes once its incoming image has gone. -/
theorem State.setHandle_setHandle_empty {s : State} (h : Nat) (r : HandleRecord)
    (hr : Sparse.rising s.handles = true) :
    (s.setHandle h r).setHandle h HandleRecord.empty = s.setHandle h HandleRecord.empty := by
  simp only [State.setHandle, Sparse.set_set_default _ _ _ _ hr]

/-! ### Serials (R5) -/

/-- R5: the serial given is reached from the counter by counting upward, over serials of live images
alone. -/
theorem freshSerial_spec (live : List Nat) : ∀ (turns n : Nat), 1 ≤ n → n ≤ 65535 →
    ∃ j, j ≤ turns ∧ freshSerial live turns n = (n - 1 + j) % 65535 + 1 ∧
      (∀ i, i < j → (n - 1 + i) % 65535 + 1 ∈ live) ∧
      (j < turns → freshSerial live turns n ∉ live) := by
  intro turns
  induction turns with
  | zero =>
    intro n h1 h2
    exact ⟨0, Nat.le_refl _, by simp [freshSerial]; omega, by simp, by simp⟩
  | succ t ih =>
    intro n h1 h2
    by_cases hn : n ∈ live
    · have hs : 1 ≤ serialAfter n ∧ serialAfter n ≤ 65535 := by unfold serialAfter; split <;> omega
      obtain ⟨j, hj, he, hl, hf⟩ := ih (serialAfter n) hs.1 hs.2
      have key : ∀ i, (serialAfter n - 1 + i) % 65535 = (n - 1 + (i + 1)) % 65535 := by
        intro i
        unfold serialAfter
        split
        · have : n = 65535 := by omega
          subst this; omega
        · congr 1; omega
      refine ⟨j + 1, by omega, ?_, ?_, ?_⟩
      · simp only [freshSerial, hn, if_true, he, key]
      · intro i hi
        cases i with
        | zero => rw [show (n - 1 + 0) % 65535 + 1 = n by omega]; exact hn
        | succ i => rw [← key]; exact hl i (by omega)
      · intro h; simp only [freshSerial, hn, if_true]; exact hf (by omega)
    · refine ⟨0, by omega, ?_, by simp, ?_⟩
      · simp [freshSerial, hn]; omega
      · simp [freshSerial, hn]

end Sys2Proof.Machine
end

