-- ==== Sys2Proof/Laws/Ops.lean ====
section
/-!
SUPPORT. What the shared operations can do, each said once: how a request is answered, waits or is
discarded, what an event leaves, what the notice queue and the transmitter do.
-/
namespace Sys2Proof.Machine

/-! ### Requests -/

/-- The state a request leaves where the link hands it on at once: its block's answer in the slot. -/
theorem State.perform_transmit (s : State) (f : Frame) (take : State → Answer) :
    (s.perform f take).transmit = (take s).1.withReply f.kind f.tag (take s).2 := rfl

/-- A request that the link hands on at once (R202). -/
theorem submit_open {i : Instr} {f : Frame} {s : State} (take : State → Answer)
    (hf : encodeRequest i = some f) (hw : i.wellFormed = true) (ho : s.open = true) :
    submit i take s = .next ((take s).1.withReply f.kind f.tag (take s).2) := by
  simp only [State.open, Bool.and_eq_true, Bool.not_eq_true'] at ho
  obtain ⟨⟨⟨h1, h2⟩, h3⟩, h4⟩ := ho
  simp [submit, hf, h1, h2, h3, h4, hw, State.perform_transmit]

/-- A request while the RESET line is asserted (R215). -/
theorem submit_inReset (i : Instr) (take : State → Answer) {s : State} (h : s.inReset = true) :
    submit i take s = .next s := by
  unfold submit
  cases encodeRequest i <;> simp [h]

/-- A request that waits (R201): a frame waits before it, or a reply is in the slot, or the link waits
for one to be sent. -/
theorem submit_waits {i : Instr} {f : Frame} {s : State} (take : State → Answer)
    (hf : encodeRequest i = some f) (hr : s.inReset = false) (hs : s.link.standby = false)
    (hb : (s.link.ready && s.link.requests.isEmpty) = false) :
    submit i take s = .next ({ s with link := s.link.arrive f }).transmit := by
  simp [submit, hf, hr, hs, hb, State.arrive]

/-- In standby a request other than WAKE is discarded (R213). -/
theorem submit_standby {i : Instr} {f : Frame} {s : State} (take : State → Answer)
    (hf : encodeRequest i = some f) (hs : s.link.standby = true)
    (hk : (f.kind == 0x05 && f.payload.isEmpty) = false) : submit i take s = .next s := by
  simp only [submit, hf, hs, hk, Bool.not_false, Bool.and_true, if_true]
  split <;> rfl

/-- Every outcome of a request. -/
theorem submit_cases (i : Instr) (take : State → Answer) (s : State) :
    submit i take s = .next s ∨
    (∃ f, encodeRequest i = some f ∧
      (submit i take s = .next (s.perform f take).transmit ∨
       submit i take s = .next (s.rejectFrame .badFrame f.tag).transmit ∨
       submit i take s = .next (s.arrive f).transmit)) := by
  unfold submit
  cases hf : encodeRequest i with
  | none => exact Or.inl rfl
  | some f =>
    simp only
    split
    · exact Or.inl rfl
    split
    · exact Or.inl rfl
    split
    · split
      · exact Or.inr ⟨f, rfl, Or.inl rfl⟩
      · exact Or.inr ⟨f, rfl, Or.inr (Or.inl rfl)⟩
    · exact Or.inr ⟨f, rfl, Or.inr (Or.inr rfl)⟩

/-- Where an outcome keeps a property, a request keeps it: the property need only survive the block's
own work and changes of the link. -/
theorem submit_keeps (P : State → Prop) (i : Instr) (take : State → Answer) (s t : State)
    (hs : P s) (htake : P (take s).1)
    (hlink : ∀ (u : State) (l : Link), P u → P { u with link := l })
    (h : submit i take s = .next t) : P t := by
  rcases submit_cases i take s with h1 | ⟨f, _, h1 | h1 | h1⟩
  · rw [h1] at h; cases h; exact hs
  · rw [h1] at h; cases h
    exact hlink _ _ (hlink _ _ htake)
  · rw [h1] at h; cases h
    exact hlink _ _ (hlink _ _ hs)
  · rw [h1] at h; cases h
    have ha : P (s.arrive f) := by
      unfold State.arrive
      split
      · exact hs
      · exact hlink _ _ hs
    exact hlink _ _ ha

/-! ### Events -/

/-- An event outside reset. -/
theorem event_live (f : State → State) {s : State} (h : s.inReset = false) :
    event f s = .next (f s).transmit := by
  simp [event, h]

/-- An event while the RESET line is asserted (R215). -/
theorem event_inReset (f : State → State) {s : State} (h : s.inReset = true) :
    event f s = .next s := by
  simp [event, h]

/-- Where the event's work and changes of the link keep a property, the event keeps it. -/
theorem event_keeps (P : State → Prop) (f : State → State) (s t : State) (hs : P s) (hf : P (f s))
    (hlink : ∀ (u : State) (l : Link), P u → P { u with link := l })
    (h : event f s = .next t) : P t := by
  unfold event at h
  split at h
  · cases h; exact hs
  · cases h; exact hlink _ _ hf

/-! ### Notices (R209) -/

/-- A withheld notice changes nothing. -/
theorem Link.notify_withheld {l : Link} {n : Notice} (h : l.mask.getLsbD (n.type - 1) = false) :
    l.notify n = l := by
  simp [Link.notify, h]

/-- A full queue: the notice is lost. -/
theorem Link.notify_full {l : Link} {n : Notice} (h : l.mask.getLsbD (n.type - 1) = true)
    (hf : Config.noticePlaces ≤ l.notices.length) : l.notify n = { l with lost := true } := by
  simp [Link.notify, h, Nat.not_lt.mpr hf]

/-- Room in the queue: the notice joins it with the lost-before flag. -/
theorem Link.notify_queued {l : Link} {n : Notice} (h : l.mask.getLsbD (n.type - 1) = true)
    (hf : l.notices.length < Config.noticePlaces) :
    l.notify n = { l with notices := l.notices ++ [⟨n, l.lost⟩], lost := false } := by
  simp [Link.notify, h, hf]

/-- A notice touches the notice queue and its marker alone. -/
theorem Link.notify_frame (l : Link) (n : Notice) :
    l.notify n = { l with notices := (l.notify n).notices, lost := (l.notify n).lost } := by
  unfold Link.notify
  split
  · split <;> rfl
  · rfl

theorem Link.notify_length (l : Link) (n : Notice)
    (h : l.notices.length ≤ Config.noticePlaces) :
    (l.notify n).notices.length ≤ Config.noticePlaces := by
  unfold Link.notify
  split
  · split
    · simp only [List.length_append, List.length_singleton]; omega
    · exact h
  · exact h

/-! ### The transmitter (R203) -/

/-- What the transmitter is sending goes on. -/
theorem Link.transmit_busy {l : Link} {x : Sending} (h : l.sending = some x) : l.transmit = l := by
  simp [Link.transmit, h]

/-- The transmitter touches what it sends and the notice queue alone. -/
theorem Link.transmit_frame (l : Link) :
    l.transmit = { l with sending := l.transmit.sending, notices := l.transmit.notices } := by
  unfold Link.transmit
  split
  · rfl
  · split
    · rfl
    · split <;> rfl
    · rfl
    · rfl
    · rfl

/-- A transmitter that stays free found nothing waiting. -/
theorem Link.transmit_free (l : Link) (h : l.transmit.sending = none) :
    l.transmit.linkReplies = [] ∧ l.transmit.slot = none ∧ l.transmit.notices = [] := by
  unfold Link.transmit at h ⊢
  split at h
  · simp_all
  · split at h
    · simp at h
    · split at h <;> simp at h
    · simp at h
    · simp at h
    · simp_all

theorem Link.transmit_length (l : Link) : l.transmit.notices.length ≤ l.notices.length := by
  unfold Link.transmit
  split
  · exact Nat.le_refl _
  · split
    · exact Nat.le_refl _
    · split
      · rename_i h _
        simp_all
      · exact Nat.le_refl _
    · exact Nat.le_refl _
    · rename_i h
      simp_all
    · exact Nat.le_refl _

end Sys2Proof.Machine
end

