-- ==== Sys2Proof/Laws/PerInstr.lean ====
section
/-!
SUPPORT. Facts said of each command in turn. `RequestLength`: the frame of a well-formed request has the
payload length that R207 gives its kind.
-/
namespace Sys2Proof.Laws.RequestLength

open Machine

/-- The payload of a request's frame has the length its kind asks for (R202, R207). -/
def Statement (i : Instr) : Prop :=
  i.wellFormed = true → ∀ f, encodeRequest i = some f →
    payloadLength f.kind f.payload = some f.payload.length

theorem bytesOfHalves_length (xs : List Half) : (bytesOfHalves xs).length = 2 * xs.length := by
  induction xs with
  | nil => rfl
  | cons x xs ih =>
    simp only [bytesOfHalves, List.flatMap_cons, List.length_append, List.length_cons] at ih ⊢
    rw [ih]
    simp only [bytesOfHalf, List.length_cons, List.length_nil]
    omega

theorem records_length (rs : List (BitVec 64)) : (rs.flatMap bytesOfRecord).length = 8 * rs.length := by
  induction rs with
  | nil => rfl
  | cons x xs ih =>
    simp only [List.flatMap_cons, List.length_append, List.length_cons, ih]
    simp only [bytesOfRecord, List.length_cons, List.length_nil]
    omega

/-- A request whose payload length is the same for every payload. -/
theorem of_fixed {kind tag : Byte} {p : List Byte} {n : Nat}
    (hk : ∀ q, payloadLength kind q = some n) (hp : p.length = n) :
    ∀ f, some (⟨kind, tag, p⟩ : Frame) = some f →
      payloadLength f.kind f.payload = some f.payload.length := by
  intro f hf
  cases hf
  rw [hk, hp]

theorem identify tag : Statement (.identify tag) := by
  exact fun _ => of_fixed (fun _ => rfl) rfl

theorem readDevice tag : Statement (.readDevice tag) := by
  exact fun _ => of_fixed (fun _ => rfl) rfl

theorem resetEngine tag : Statement (.resetEngine tag) := by
  exact fun _ => of_fixed (fun _ => rfl) rfl

theorem enterStandby tag : Statement (.enterStandby tag) := by
  exact fun _ => of_fixed (fun _ => rfl) rfl

theorem wake tag : Statement (.wake tag) := by
  exact fun _ => of_fixed (fun _ => rfl) rfl

theorem setNotices tag mask : Statement (.setNotices tag mask) := by
  exact fun _ => of_fixed (fun _ => rfl) rfl

theorem defineImage tag handle sampleLength commitOnFinish : Statement (.defineImage tag handle sampleLength commitOnFinish) := by
  exact fun _ => of_fixed (fun _ => rfl) rfl

theorem writePage tag handle pageIndex samples : Statement (.writePage tag handle pageIndex samples) := by
  intro hw
  have h : samples.length = 256 := by simpa [Instr.wellFormed] using hw
  exact of_fixed (fun _ => rfl) (by
    simp [bytesOfHalves_length, h, bytesOfHalf])

theorem finishImage tag handle : Statement (.finishImage tag handle) := by
  exact fun _ => of_fixed (fun _ => rfl) rfl

theorem commit tag handle : Statement (.commit tag handle) := by
  exact fun _ => of_fixed (fun _ => rfl) rfl

theorem dropIncoming tag handle : Statement (.dropIncoming tag handle) := by
  exact fun _ => of_fixed (fun _ => rfl) rfl

theorem releaseHandle tag handle : Statement (.releaseHandle tag handle) := by
  exact fun _ => of_fixed (fun _ => rfl) rfl

theorem readHandle tag handle : Statement (.readHandle tag handle) := by
  exact fun _ => of_fixed (fun _ => rfl) rfl

theorem readMap tag startIndex : Statement (.readMap tag startIndex) := by
  exact fun _ => of_fixed (fun _ => rfl) rfl

theorem setGuard tag slot firstPage lastPage mode : Statement (.setGuard tag slot firstPage lastPage mode) := by
  exact fun _ => of_fixed (fun _ => rfl) rfl

theorem clearGuard tag slot : Statement (.clearGuard tag slot) := by
  exact fun _ => of_fixed (fun _ => rfl) rfl

theorem lockGuards tag level : Statement (.lockGuards tag level) := by
  exact fun _ => of_fixed (fun _ => rfl) rfl

theorem readGuards tag : Statement (.readGuards tag) := by
  exact fun _ => of_fixed (fun _ => rfl) rfl

theorem startImport tag handle flashAddress sampleLength commitOnFinish : Statement (.startImport tag handle flashAddress sampleLength commitOnFinish) := by
  exact fun _ => of_fixed (fun _ => rfl) rfl

theorem cancelImport tag : Statement (.cancelImport tag) := by
  exact fun _ => of_fixed (fun _ => rfl) rfl

theorem readImport tag : Statement (.readImport tag) := by
  exact fun _ => of_fixed (fun _ => rfl) rfl

theorem closeLibrary tag : Statement (.closeLibrary tag) := by
  exact fun _ => of_fixed (fun _ => rfl) rfl

theorem setWalk tag enable interval blockSize rangeStart rangeEnd : Statement (.setWalk tag enable interval blockSize rangeStart rangeEnd) := by
  exact fun _ => of_fixed (fun _ => rfl) rfl

theorem readWalk tag : Statement (.readWalk tag) := by
  exact fun _ => of_fixed (fun _ => rfl) rfl

theorem setPartition tag unitCounts : Statement (.setPartition tag unitCounts) := by
  intro hw
  have h : unitCounts.length = 8 := by simpa [Instr.wellFormed] using hw
  exact of_fixed (fun _ => rfl) h

theorem writeSteps tag channel first count records : Statement (.writeSteps tag channel first count records) := by
  intro hw f hf
  have h : records.length = count.toNat := by simpa [Instr.wellFormed] using hw
  cases hf
  simp only [payloadLength, byteAt, bytesOfHalf, List.length_append, records_length, h]
  simp

theorem readSteps tag channel first count : Statement (.readSteps tag channel first count) := by
  exact fun _ => of_fixed (fun _ => rfl) rfl

theorem run tag mask start code sense : Statement (.run tag mask start code sense) := by
  exact fun _ => of_fixed (fun _ => rfl) rfl

theorem stop tag mask mode : Statement (.stop tag mask mode) := by
  exact fun _ => of_fixed (fun _ => rfl) rfl

theorem pause tag mask : Statement (.pause tag mask) := by
  exact fun _ => of_fixed (fun _ => rfl) rfl

theorem resume tag mask : Statement (.resume tag mask) := by
  exact fun _ => of_fixed (fun _ => rfl) rfl

theorem readChannel tag channel : Statement (.readChannel tag channel) := by
  exact fun _ => of_fixed (fun _ => rfl) rfl

theorem clearFault tag channel : Statement (.clearFault tag channel) := by
  exact fun _ => of_fixed (fun _ => rfl) rfl

theorem setPolicy tag channel policy routing timerNotice : Statement (.setPolicy tag channel policy routing timerNotice) := by
  exact fun _ => of_fixed (fun _ => rfl) rfl

theorem setFlags tag set clear toggle : Statement (.setFlags tag set clear toggle) := by
  exact fun _ => of_fixed (fun _ => rfl) rfl

theorem fireTrigger tag mask : Statement (.fireTrigger tag mask) := by
  exact fun _ => of_fixed (fun _ => rfl) rfl

theorem setRoute tag channel routing present edges : Statement (.setRoute tag channel routing present edges) := by
  intro hw
  have h : edges.length = 4 := by simpa [Instr.wellFormed] using hw
  exact of_fixed (fun _ => rfl) (by simp [h])

theorem readConditions tag : Statement (.readConditions tag) := by
  exact fun _ => of_fixed (fun _ => rfl) rfl

theorem setReference tag source : Statement (.setReference tag source) := by
  exact fun _ => of_fixed (fun _ => rfl) rfl

theorem readClock tag : Statement (.readClock tag) := by
  exact fun _ => of_fixed (fun _ => rfl) rfl

theorem setRate tag channel decimation : Statement (.setRate tag channel decimation) := by
  exact fun _ => of_fixed (fun _ => rfl) rfl

theorem setOutput tag channel gain offset clampLow clampHigh rest enable polarityA polarityB : Statement (.setOutput tag channel gain offset clampLow clampHigh rest enable polarityA polarityB) := by
  exact fun _ => of_fixed (fun _ => rfl) rfl

theorem readOutput tag channel : Statement (.readOutput tag channel) := by
  exact fun _ => of_fixed (fun _ => rfl) rfl

theorem receiveCharacter byte stopHigh : Statement (.receiveCharacter byte stopHigh) := by
  intro _ f hf
  cases hf

theorem linkGapTimeout : Statement (.linkGapTimeout) := by
  intro _ f hf
  cases hf

theorem requestHandOn : Statement (.requestHandOn) := by
  intro _ f hf
  cases hf

theorem frameSent : Statement (.frameSent) := by
  intro _ f hf
  cases hf

theorem standbyBegin : Statement (.standbyBegin) := by
  intro _ f hf
  cases hf

theorem engineResetPerformed : Statement (.engineResetPerformed) := by
  intro _ f hf
  cases hf

theorem powerOnReset linkRate libEn refDefault : Statement (.powerOnReset linkRate libEn refDefault) := by
  intro _ f hf
  cases hf

theorem resetLine : Statement (.resetLine) := by
  intro _ f hf
  cases hf

theorem guardEnableChange high : Statement (.guardEnableChange high) := by
  intro _ f hf
  cases hf

theorem pauseLineChange high : Statement (.pauseLineChange high) := by
  intro _ f hf
  cases hf

theorem triggerLineChange line high : Statement (.triggerLineChange line high) := by
  intro _ f hf
  cases hf

theorem lockAcquired : Statement (.lockAcquired) := by
  intro _ f hf
  cases hf

theorem lockTimeoutExpiry : Statement (.lockTimeoutExpiry) := by
  intro _ f hf
  cases hf

theorem referenceLost : Statement (.referenceLost) := by
  intro _ f hf
  cases hf

theorem transferDone : Statement (.transferDone) := by
  intro _ f hf
  cases hf

theorem holdRaise target : Statement (.holdRaise target) := by
  intro _ f hf
  cases hf

theorem holdDrop target : Statement (.holdDrop target) := by
  intro _ f hf
  cases hf

theorem samplePeriod channel : Statement (.samplePeriod channel) := by
  intro _ f hf
  cases hf

theorem timeBaseTap tap : Statement (.timeBaseTap tap) := by
  intro _ f hf
  cases hf

theorem timerExpiry channel : Statement (.timerExpiry channel) := by
  intro _ f hf
  cases hf

theorem operandChange channel : Statement (.operandChange channel) := by
  intro _ f hf
  cases hf

theorem importPageComplete transaction data : Statement (.importPageComplete transaction data) := by
  intro _ f hf
  cases hf

theorem walkIntervalExpiry : Statement (.walkIntervalExpiry) := by
  intro _ f hf
  cases hf

theorem scanReadComplete read : Statement (.scanReadComplete read) := by
  intro _ f hf
  cases hf

theorem resetLineRelease : Statement (.resetLineRelease) := by
  intro _ f hf
  cases hf

theorem pageDecay page data : Statement (.pageDecay page data) := by
  intro _ f hf
  cases hf

end Sys2Proof.Laws.RequestLength
end

