-- ==== Sys2Proof/Laws/Requests.lean ====
section
/-!
SUPPORT. A request as a command and the same request in its frame: one owner, one effect.
-/
namespace Sys2Proof.Machine

/-- A request as a command is handed to its owner by `submit`. -/
theorem exec_request {i : Instr} {take : State → Answer} (h : takeOf i = some take) (s : State) :
    exec i s = submit i take s := by
  cases i <;> simp only [takeOf, Option.some.injEq, reduceCtorEq] at h <;> subst h <;> rfl

/-- A request that the link hands on at once: its owner's answer, in the slot. -/
theorem exec_open {i : Instr} {f : Frame} {s : State} {take : State → Answer}
    (h : takeOf i = some take) (hf : encodeRequest i = some f) (hw : i.wellFormed = true)
    (ho : s.open = true) :
    exec i s = .next ((take s).1.withReply f.kind f.tag (take s).2) := by
  rw [exec_request h, submit_open take hf hw ho]

/-- The commands that have a frame are those that a block owns. -/
theorem takeOf_isSome (i : Instr) : (takeOf i).isSome = (encodeRequest i).isSome := by
  cases i <;> rfl

end Sys2Proof.Machine
end

