-- ==== Sys2Proof/Laws/StepStore.lean ====
section
/-!
SUPPORT. The Step Store: what a list of records checks to, and what the store holds after a write.
-/
namespace Sys2Proof.Machine

/-- R75: records that all pass give their steps. -/
theorem checkRecords_ok : ∀ (rs : List (BitVec 64)) (k : Nat) (xs : List Step),
    xs.length = rs.length →
    (∀ j, j < rs.length → checkRecord (rs.getD j 0) = .ok (xs.getD j .stop)) →
    checkRecords k rs = .ok xs := by
  intro rs
  induction rs with
  | nil =>
    intro k xs h _
    have : xs = [] := List.length_eq_zero_iff.mp h
    subst this; rfl
  | cons r rs ih =>
    intro k xs h1 h2
    match xs, h1 with
    | x :: xs, h1 =>
      have h0 : checkRecord r = .ok x := by simpa using h2 0 (by simp)
      have := ih (k + 1) xs (by simpa using h1) fun j hj => by
        simpa using h2 (j + 1) (by simpa using hj)
      simp [checkRecords, h0, this]

/-- R75: the first record that fails gives its position and reason. -/
theorem checkRecords_error : ∀ (rs : List (BitVec 64)) (b k : Nat) (reason : StepReason),
    k < rs.length → (∀ j, j < k → ∃ x, checkRecord (rs.getD j 0) = .ok x) →
    checkRecord (rs.getD k 0) = .error reason → checkRecords b rs = .error (b + k, reason) := by
  intro rs
  induction rs with
  | nil => intro b k _ h; simp at h
  | cons r rs ih =>
    intro b k reason h1 h2 h3
    cases k with
    | zero => simp at h3; simp [checkRecords, h3]
    | succ k =>
      obtain ⟨x, h0⟩ := h2 0 (by omega)
      simp at h0
      have := ih (b + 1) k reason (by simpa using h1)
        (fun j hj => by simpa using h2 (j + 1) (by omega)) (by simpa using h3)
      simp [checkRecords, h0, this]; omega

/-! ### The bits of a record (R66, R75) -/

/-- The bits of a mask. -/
theorem getLsbD_bits {k : Nat} (lo n : Nat) (hk : k < 64) :
    (bits lo n).getLsbD k = decide (lo ≤ k ∧ k < lo + n) := by
  unfold bits
  rw [BitVec.getLsbD_ofNat, ← Nat.shiftLeft_eq, Nat.testBit_shiftLeft, Nat.testBit_two_pow_sub_one]
  by_cases h1 : lo ≤ k
  · have h2 : (k - lo < n) ↔ (k < lo + n) := by omega
    simp [hk, h1, h2]
  · simp [hk, h1]

/-- R65, R66: the bits that the layout assigns, by kind and form. -/
theorem getLsbD_assignedBits (r : BitVec 64) {k : Nat} (hk : k < 64) :
    (assignedBits r).getLsbD k = true ↔
      k < 4 ∨
      match (field r 0 4).toNat with
      | 1 => (4 ≤ k ∧ k < 6) ∨ (8 ≤ k ∧ k < 26) ∨ (32 ≤ k ∧ k < 48) ∨
          (r.getLsbD 5 = true ∧ 26 ≤ k ∧ k < 32) ∨ (r.getLsbD 4 = true ∧ 48 ≤ k)
      | 2 => k = 4 ∨ (16 ≤ k ∧ k < 28) ∨
          if r.getLsbD 4 = true then 8 ≤ k ∧ k < 14 else 32 ≤ k ∧ k < 48
      | 3 => k = 4 ∨ (8 ≤ k ∧ k < 14) ∨ (16 ≤ k ∧ k < 28)
      | 4 => 16 ≤ k ∧ k < 28
      | 6 => k = 4 ∨ (8 ≤ k ∧ k < 14)
      | 7 => (8 ≤ k ∧ k < 16) ∨ (32 ≤ k ∧ k < 48)
      | 8 => (4 ≤ k ∧ k < 6) ∨ (24 ≤ k ∧ k < 32) ∨ (r.getLsbD 4 = true ∧ 8 ≤ k ∧ k < 24)
      | _ => False := by
  unfold assignedBits
  rw [BitVec.getLsbD_or, getLsbD_bits _ _ hk, Bool.or_eq_true, decide_eq_true_eq]
  have hz : (0 : BitVec 64).getLsbD k = false := by simp
  refine or_congr (by omega) ?_
  generalize (field r 0 4).toNat = kind
  generalize r.getLsbD 4 = four
  generalize r.getLsbD 5 = five
  split <;> cases four <;> cases five <;>
    simp only [BitVec.getLsbD_or, getLsbD_bits _ _ hk, hz, Bool.or_eq_true,
      decide_eq_true_eq, if_true, if_false, Bool.false_eq_true, true_and, false_and, or_false, false_or,
      iff_self] <;>
    omega

/-- R75, RESERVED: a bit outside the layout is set exactly where the check says so. -/
theorem reserved_iff (r : BitVec 64) :
    r &&& ~~~assignedBits r ≠ 0 ↔
      ∃ k, k < 64 ∧ r.getLsbD k = true ∧ ¬(assignedBits r).getLsbD k = true := by
  constructor
  · intro h
    by_contra hn
    refine h (BitVec.eq_of_getLsbD_eq fun k hk => ?_)
    have hz : (0 : BitVec 64).getLsbD k = false := by simp
    rw [BitVec.getLsbD_and, BitVec.getLsbD_not, hz]
    by_cases hb : r.getLsbD k = true
    · have : (assignedBits r).getLsbD k = true := by
        by_contra ha
        exact hn ⟨k, hk, hb, ha⟩
      simp [this]
    · simp [Bool.eq_false_iff.mpr hb]
  · rintro ⟨k, hk, hb, ha⟩ h
    have hz : (0 : BitVec 64).getLsbD k = false := by simp
    have := congrArg (fun x => BitVec.getLsbD x k) h
    simp only [BitVec.getLsbD_and, BitVec.getLsbD_not, hb, hk, Bool.eq_false_iff.mpr ha, hz] at this
    exact absurd this (by decide)

/-! ### The store -/

theorem rising_set (m : Sparse Step) (k : Nat) (x : Step) (h : Sparse.rising m = true) :
    Sparse.rising (Sparse.set .stop m k x) = true := by
  unfold Sparse.set
  split
  · exact Sparse.rising_erase _ _ h
  · exact Sparse.rising_put _ _ _ h

/-- R58, R74: what every position holds after steps have been written from a position upward. -/
theorem get_writeStepsAt : ∀ (xs : List Step) (m : Sparse Step) (b k : Nat), Sparse.rising m = true →
    Sparse.get .stop (writeStepsAt m b xs) k =
      if b ≤ k ∧ k < b + xs.length then xs.getD (k - b) .stop else Sparse.get .stop m k := by
  intro xs
  induction xs with
  | nil =>
    intro m b k _
    rw [if_neg (by simp only [List.length_nil]; omega)]; rfl
  | cons x xs ih =>
    intro m b k h
    simp only [writeStepsAt, ih _ _ _ (rising_set m b x h)]
    by_cases hk : k = b
    · subst hk
      rw [if_neg (by omega), if_pos (by simp), Sparse.get_set_self _ _ _ _ h]; simp
    · rw [Sparse.get_set_ne _ _ hk]
      by_cases h1 : b + 1 ≤ k ∧ k < b + 1 + xs.length
      · rw [if_pos h1, if_pos (by simp; omega), show k - b = (k - (b + 1)) + 1 by omega]
        simp
      · rw [if_neg h1, if_neg (by simp; omega)]

/-- R58: the store keeps its canonical form. -/
theorem canonical_writeStepsAt : ∀ (xs : List Step) (m : Sparse Step) (b : Nat),
    Sparse.canonical Step.stop m = true → Sparse.canonical Step.stop (writeStepsAt m b xs) = true := by
  intro xs
  induction xs with
  | nil => intro m b h; exact h
  | cons x xs ih => intro m b h; exact ih _ _ (Sparse.canonical_set _ _ _ _ h)

end Sys2Proof.Machine
end

