-- ==== Sys2Proof/Laws/TimeBase.lean ====
section
/-!
SUPPORT. The tick, the taps and the expiry of a timer (R143, R146, R149, R150), and which event the part
takes of itself, each said once.
-/
namespace Sys2Proof.Machine

/-! ### Events that may be taken -/

/-- R141, R162: the events that wait for the hold to drop. -/
theorem State.admits_eq_false (s : State) (e : Instr) :
    s.admits e = false ↔
      (∃ c, e = .samplePeriod c ∧ (s.clock.hold = true ∨ (s.engine c).held = true)) ∨
        ∃ k, e = .timeBaseTap k ∧ s.clock.hold = true := by
  cases e <;> simp [State.admits]
  cases s.clock.hold <;> simp

/-- The part takes the oldest event handed on that may be taken. -/
theorem State.ownEvent_handed {s : State} {before after : List Instr} {e : Instr}
    (h : s.handed = before ++ e :: after) (hb : ∀ x ∈ before, s.admits x = false)
    (he : s.admits e = true) : s.ownEvent = some e := by
  have hf : s.handed.find? s.admits = some e := by
    rw [h, List.find?_append, List.find?_eq_none.mpr fun x hx => by simp [hb x hx]]
    simp [he]
  unfold State.ownEvent
  rw [hf]

/-! ### A master period (R143, R146) -/

/-- R143: a counted master period moves every decimation phase, and hands a sample period event to each
channel whose phase reaches its decimation; nothing else changes. -/
theorem State.tickPhases_eq (s : State) :
    (s.eachChannel fun c s => s.tickPhase c) = { s with
      channels := (s.eachChannel fun c s => s.tickPhase c).channels
      handed := s.handed ++ (allChannels.filter fun c =>
        decide ((s.rate c).decimation ≤ (s.rate c).phase + 1)).map Instr.samplePeriod } ∧
    ∀ c, (s.eachChannel fun c s => s.tickPhase c).chan c = { s.chan c with
      rate := { s.rate c with
        phase := if (s.rate c).phase + 1 < (s.rate c).decimation then (s.rate c).phase + 1 else 0 } } := by
  unfold State.eachChannel
  have key : ∀ l : List Chan, l.Nodup → ∀ u : State, (∀ c ∈ l, u.chan c = s.chan c) →
      let r := l.foldl (fun s c => s.tickPhase c) u
      r = { u with
        channels := r.channels
        handed := u.handed ++ (l.filter fun c =>
          decide ((s.rate c).decimation ≤ (s.rate c).phase + 1)).map Instr.samplePeriod } ∧
      ∀ c, r.chan c = if c ∈ l then { s.chan c with
        rate := { s.rate c with
          phase := if (s.rate c).phase + 1 < (s.rate c).decimation then (s.rate c).phase + 1
            else 0 } } else u.chan c := by
    intro l
    induction l with
    | nil => intro _ u _; simp
    | cons c l ih =>
      intro hn u hu
      have hn' := List.nodup_cons.mp hn
      have hc : u.chan c = s.chan c := hu c (List.mem_cons_self ..)
      have hr : u.rate c = s.rate c := by simp [State.rate, hc]
      have h1 : ∀ d, (u.tickPhase c).chan d = if d = c then { s.chan c with
          rate := { s.rate c with
            phase := if (s.rate c).phase + 1 < (s.rate c).decimation then (s.rate c).phase + 1
              else 0 } } else u.chan d := by
        intro d
        unfold State.tickPhase
        simp only [hr]
        by_cases hd : d = c
        · subst hd
          split <;> simp [hc, State.rate]
        · split <;> simp [State.chan_setRate_ne _ fun e => hd e.symm]
      have h2 : u.tickPhase c = { u with
          channels := (u.tickPhase c).channels
          handed := u.handed ++
            if (s.rate c).decimation ≤ (s.rate c).phase + 1 then [.samplePeriod c] else [] } := by
        unfold State.tickPhase
        simp only [hr]
        split
        · rw [if_neg (by omega)]; simp; rfl
        · rw [if_pos (by omega)]; rfl
      have hi := ih hn'.2 (u.tickPhase c) fun d hd => by
        rw [h1, if_neg (fun e : d = c => hn'.1 (e ▸ hd))]
        exact hu d (List.mem_cons_of_mem _ hd)
      simp only [List.foldl_cons]
      refine ⟨?_, fun d => ?_⟩
      · rw [hi.1, h2]
        by_cases hq : (s.rate c).decimation ≤ (s.rate c).phase + 1 <;> simp [hq]
      · rw [hi.2 d, h1]
        by_cases hd : d = c
        · subst hd; simp [hn'.1]
        · simp [hd]
  have h := key allChannels nodup_allChannels s fun _ _ => rfl
  exact ⟨h.1, fun c => by rw [h.2 c, if_pos (mem_allChannels c)]⟩

/-- R146: the other taps that fall at the same master period as a tap. -/
theorem tapsAt_erase (p : Nat) (k : Fin 7) :
    (tapsAt p).erase k = dividedTaps.filter fun j => decide (j ≠ k ∧ p % tapPeriods j = 0) := by
  have hn : (tapsAt p).Nodup := List.Nodup.sublist List.filter_sublist (by decide)
  rw [hn.erase_eq_filter, tapsAt, List.filter_filter]
  congr 1
  funext j
  simp only [bne, Bool.decide_and, beq_eq_decide]
  by_cases h : j = k <;> simp [h]

/-! ### Timers (R149, R150) -/

/-- R149: a tap that the timer counts, and does not bring to 0, lowers its count; any other tap leaves
the channel as it is. -/
theorem State.tapTimer_eq (s : State) (c : Chan) (tap : Fin 8)
    (h : (s.timer c).running = true → (s.timer c).tap = tap → 1 < (s.timer c).count) :
    s.tapTimer c tap = if (s.timer c).running = true ∧ (s.timer c).tap = tap then
      s.setTimer c { s.timer c with count := (s.timer c).count - 1 } else s := by
  unfold State.tapTimer
  by_cases hq : (s.timer c).running = true ∧ (s.timer c).tap = tap
  · rw [if_pos hq]
    simp only [hq.1, hq.2, beq_self_eq_true, Bool.and_self, if_true]
    rw [if_neg (Nat.not_le.mpr (h hq.1 hq.2))]
  · rw [if_neg hq]
    simp only
    rw [if_neg fun e => hq ?_]
    simpa using e

/-- R149, R150: the tap that brings the timer to 0 is its expiry. -/
theorem State.tapTimer_expires {s : State} {c : Chan} {tap : Fin 8} (h1 : (s.timer c).running = true)
    (h2 : (s.timer c).tap = tap) (h3 : (s.timer c).count ≤ 1) : s.tapTimer c tap = s.expireTimer c := by
  simp [State.tapTimer, h1, h2, h3]

/-- R150: the timer of a channel that expires is STOPPED at 0 with its latch set; every other channel
stays. -/
theorem State.chan_expireTimer (s : State) (c d : Chan) :
    (s.expireTimer c).chan d = if d = c then
      { s.chan c with timer := { s.timer c with running := false, count := 0, expired := true } }
      else s.chan d := by
  have key : (s.expireTimer c).chan d =
      (s.setTimer c { s.timer c with running := false, count := 0, expired := true }).chan d := by
    unfold State.expireTimer
    simp only
    split <;> split <;> (first | rfl | (split <;> rfl))
  rw [key]
  by_cases hd : d = c
  · subst hd; simp
  · rw [if_neg hd, State.chan_setTimer_ne _ fun e => hd e.symm]

end Sys2Proof.Machine
end

