-- ==== Sys2Proof/Laws/Walk.lean ====
section
/-!
SUPPORT. The pages a block visits (R189, R190), round the range: passed over up to the first that is to be
read, or to the end of the block.
-/
namespace Sys2Proof.Machine

theorem Scanner.after_zero {x : Scanner} (h : x.inRange) : x.after 0 = x := by
  obtain ⟨h1, h2, h3⟩ := h
  have hd : x.cursor - x.rangeStart + 0 < x.rangeEnd - x.rangeStart + 1 := by omega
  simp only [Scanner.after, Nat.mod_eq_of_lt hd, Nat.div_eq_of_lt hd]
  rw [Nat.add_zero, Nat.mod_eq_of_lt (by omega : x.sweeps + 0 < 65536), Nat.add_zero,
    show x.rangeStart + (x.cursor - x.rangeStart) = x.cursor by omega]

/-- R189: one visit moves the cursor on, round the range. -/
theorem Scanner.moveOn_eq {x : Scanner} (h : x.inRange) : x.moveOn = x.after 1 := by
  obtain ⟨h1, h2, h3⟩ := h
  unfold Scanner.moveOn
  by_cases he : x.cursor = x.rangeEnd
  · have hd : x.cursor - x.rangeStart + 1 = x.rangeEnd - x.rangeStart + 1 := by omega
    rw [if_pos he]
    simp only [Scanner.after, hd, Nat.mod_self, Nat.div_self (Nat.succ_pos _), Nat.add_zero]
    congr 1
    split <;> omega
  · have hd : x.cursor - x.rangeStart + 1 < x.rangeEnd - x.rangeStart + 1 := by omega
    rw [if_neg he]
    simp only [Scanner.after, Nat.mod_eq_of_lt hd, Nat.div_eq_of_lt hd]
    rw [Nat.mod_eq_of_lt (by omega : x.sweeps + 0 < 65536),
      show x.rangeStart + (x.cursor - x.rangeStart + 1) = x.cursor + 1 by omega]
    rfl

theorem Scanner.after_inRange {x : Scanner} (h : x.inRange) (j : Nat) : (x.after j).inRange := by
  obtain ⟨h1, h2, h3⟩ := h
  have := Nat.mod_lt (x.cursor - x.rangeStart + j) (show 0 < x.rangeEnd - x.rangeStart + 1 from Nat.succ_pos _)
  refine ⟨?_, ?_, ?_⟩ <;> simp only [Scanner.after] <;> omega

/-- Visits add up. -/
theorem Scanner.after_after {x : Scanner} (h : x.inRange) (i j : Nat) :
    (x.after i).after j = x.after (i + j) := by
  obtain ⟨h1, h2, h3⟩ := h
  have hk : ∀ m, x.rangeStart + m - x.rangeStart = m := by omega
  have hd : x.cursor - x.rangeStart + (i + j) = x.cursor - x.rangeStart + i + j := by omega
  simp only [Scanner.after, hk, hd, Nat.mod_add_mod]
  congr 1
  generalize x.cursor - x.rangeStart + i = a
  have hn : 0 < x.rangeEnd - x.rangeStart + 1 := Nat.succ_pos _
  generalize x.rangeEnd - x.rangeStart + 1 = n at hn
  have e : (a + j) / n = a / n + (a % n + j) / n := by
    conv => lhs; rw [← Nat.div_add_mod a n, Nat.add_assoc, Nat.mul_add_div hn]
  rw [e]; omega

/-- R190: which page is to be read does not depend on the scanner. -/
theorem State.toRead_setScanner (s : State) (x : Scanner) (p : Nat) :
    (s.setScanner x).toRead p = s.toRead p := rfl

/-- The first page to be read is `m` visits on. -/
theorem State.visitPages_read : ∀ (m n : Nat) (s : State) (i : Image), m < n → s.scanner.inRange →
    (∀ j, j < m → s.toRead (s.scanner.after j).cursor = none) →
    s.toRead (s.scanner.after m).cursor = some i →
    s.visitPages n = s.setScanner { s.scanner.after m with
      blockRemaining := some (n - m)
      pageInRead := some ⟨(s.scanner.after m).cursor, i.ident, s.scanner.begun⟩
      begun := s.scanner.begun + 1 } := by
  intro m
  induction m with
  | zero =>
    intro n s i h1 h2 _ h4
    obtain ⟨n, rfl⟩ : ∃ k, n = k + 1 := ⟨n - 1, by omega⟩
    rw [Scanner.after_zero h2] at h4 ⊢
    simp only [State.visitPages, h4, Scanner.beginRead, Nat.sub_zero]
  | succ m ih =>
    intro n s i h1 h2 h3 h4
    obtain ⟨n, rfl⟩ : ∃ k, n = k + 1 := ⟨n - 1, by omega⟩
    have h0 := h3 0 (by omega)
    rw [Scanner.after_zero h2] at h0
    have e : ∀ j, (s.scanner.after 1).after j = s.scanner.after (j + 1) := fun j => by
      rw [Scanner.after_after h2, Nat.add_comm]
    simp only [State.visitPages, h0]
    rw [Scanner.moveOn_eq h2, ih n (s.setScanner (s.scanner.after 1)) i (by omega)
      (Scanner.after_inRange h2 1)]
    · simp only [State.setScanner, e]
      rw [show n + 1 - (m + 1) = n - m by omega]
      rfl
    · intro j hj
      simp only [State.setScanner_scanner, State.toRead_setScanner, e]
      exact h3 (j + 1) (by omega)
    · simp only [State.setScanner_scanner, State.toRead_setScanner, e]
      exact h4

/-- No page of the block is to be read. -/
theorem State.visitPages_none : ∀ (n : Nat) (s : State), s.scanner.inRange →
    (∀ j, j < n → s.toRead (s.scanner.after j).cursor = none) →
    s.visitPages n = s.setScanner (s.scanner.after n).endBlock := by
  intro n
  induction n with
  | zero =>
    intro s h2 _
    rw [Scanner.after_zero h2]; rfl
  | succ m ih =>
    intro s h2 h3
    have h0 := h3 0 (by omega)
    rw [Scanner.after_zero h2] at h0
    have e : ∀ j, (s.scanner.after 1).after j = s.scanner.after (j + 1) := fun j => by
      rw [Scanner.after_after h2, Nat.add_comm]
    simp only [State.visitPages, h0]
    rw [Scanner.moveOn_eq h2, ih (s.setScanner (s.scanner.after 1)) (Scanner.after_inRange h2 1)]
    · simp only [State.setScanner, e]
    · intro j hj
      simp only [State.setScanner_scanner, State.toRead_setScanner, e]
      exact h3 (j + 1) (by omega)

/-! ### The damage mark (R192) -/

/-- A change of every live image's record changes the live images in their places. -/
theorem State.liveImages_mapImages (s : State) (f : Image → Image) :
    (s.mapImages f).liveImages = s.liveImages.map f := by
  simp only [State.liveImages, State.mapImages, List.map_append, List.map_map, List.flatMap_map,
    List.map_flatMap]
  congr 1
  congr 1
  funext e
  simp only [HandleRecord.images, List.map_append]
  cases e.2.current <;> cases e.2.incoming <;> rfl

/-- R190, R192: a mark changes no page's owner, so every page is to be read as before. -/
theorem State.toRead_marked (s : State) (ident page p : Nat) :
    (s.mapImages (Image.marked ident page)).toRead p =
      (s.toRead p).map (Image.marked ident page) := by
  have hh : ∀ i, (Image.marked ident page i).holdsPage p = i.holdsPage p := fun i => by
    unfold Image.marked
    split
    · split <;> rfl
    · rfl
  have hc : ∀ i, (Image.marked ident page i).checked = i.checked := fun i => by
    unfold Image.marked
    split
    · split <;> simp [Image.checked, *]
    · rfl
  have ho : (s.mapImages (Image.marked ident page)).ownerOf p =
      (s.ownerOf p).map (Image.marked ident page) := by
    simp only [State.ownerOf, State.liveImages_mapImages, List.find?_map]
    congr 2
    funext i
    exact hh i
  unfold State.toRead
  rw [ho]
  cases s.ownerOf p with
  | none => rfl
  | some i =>
    simp only [Option.map_some, hc]
    split <;> rfl

/-- R192: the record that a mark leaves is the record it found, in its number. -/
@[simp] theorem Image.marked_ident (ident page : Nat) (i : Image) :
    (Image.marked ident page i).ident = i.ident := by
  unfold Image.marked
  split
  · split <;> rfl
  · rfl

/-- A place of an image record is among its places. -/
theorem State.mem_rolesOf (s : State) (n h : Nat) (role : ImageRole) :
    (h, role) ∈ s.rolesOf n ↔
      match role with
      | .current => ∃ r i, (h, r) ∈ s.handles ∧ r.current = some i ∧ i.ident = n
      | .incoming => ∃ r i, (h, r) ∈ s.handles ∧ r.incoming = some i ∧ i.ident = n
      | .retired => ∃ e ∈ s.retired, e.origin = h ∧ e.image.ident = n := by
  cases role <;>
    simp only [State.rolesOf, List.mem_append, List.mem_flatMap, List.mem_map, List.mem_filter,
      Option.mem_toList, decide_eq_true_eq, Prod.mk.injEq, reduceCtorEq, and_false, exists_false,
      and_true, or_false, false_or]
  · constructor
    · rintro ⟨e, he, i, ⟨hi, hn⟩, rfl⟩; exact ⟨e.2, i, he, hi, hn⟩
    · rintro ⟨r, i, he, hi, hn⟩; exact ⟨(h, r), he, i, ⟨hi, hn⟩, rfl⟩
  · constructor
    · rintro ⟨e, he, i, ⟨hi, hn⟩, rfl⟩; exact ⟨e.2, i, he, hi, hn⟩
    · rintro ⟨r, i, he, hi, hn⟩; exact ⟨(h, r), he, i, ⟨hi, hn⟩, rfl⟩
  · constructor
    · rintro ⟨e, ⟨he, hn⟩, ho⟩; exact ⟨e, he, ho, hn⟩
    · rintro ⟨e, he, ho, hn⟩; exact ⟨e, ⟨he, hn⟩, ho⟩

/-- The number of an image record's places is the number of live images that carry its number. -/
theorem State.rolesOf_length (s : State) (n : Nat) :
    (s.rolesOf n).length = ((s.liveImages.map Image.ident).filter fun k => decide (k = n)).length := by
  have hh : ∀ l : List (Nat × HandleRecord),
      (l.flatMap fun e =>
        (e.2.current.toList.filter fun i => decide (i.ident = n)).map
            (fun _ => (e.1, ImageRole.current)) ++
          (e.2.incoming.toList.filter fun i => decide (i.ident = n)).map
            fun _ => (e.1, ImageRole.incoming)).length =
        (((l.flatMap fun e => e.2.images).map Image.ident).filter fun k => decide (k = n)).length := by
    intro l
    induction l with
    | nil => rfl
    | cons e l ih =>
      simp only [List.flatMap_cons, List.length_append, List.map_append, List.filter_append, ih]
      congr 1
      simp only [HandleRecord.images, List.map_append, List.filter_append, List.length_append,
        List.length_map]
      cases e.2.current <;> cases e.2.incoming <;>
        simp [List.filter_cons] <;> (repeat' split) <;> simp_all
  simp only [State.rolesOf, State.liveImages, List.length_append, List.map_append,
    List.filter_append, hh]
  congr 1
  simp only [List.length_map, List.map_map, List.filter_map]
  rfl

/-- R192: where no two live images are one record, a place of a record is its only one. -/
theorem State.rolesOf_eq {s : State} {n h : Nat} {role : ImageRole}
    (hd : (s.liveImages.map Image.ident).Nodup) (hm : (h, role) ∈ s.rolesOf n) :
    s.rolesOf n = [(h, role)] := by
  have h1 : (s.rolesOf n).length ≤ 1 := by
    rw [State.rolesOf_length, ← List.countP_eq_length_filter]
    exact (List.nodup_iff_count_le_one.mp hd) n
  match hr : s.rolesOf n, h1, hm with
  | [x], _, hm => rw [List.mem_singleton.mp hm]

end Sys2Proof.Machine
end

