-- ==== Sys2Proof/Tests/Slice0.lean ====
section
/-!
SUPPORT. The tests of this model: ill-formed commands that the check refuses, the spec's own worked
numbers, and, for every statement with hypotheses, a state and operands that meet them, at the ends of
their ranges where a clause has a range.
-/
namespace Sys2Proof.Tests

open Sys2Proof Sys2Proof.Machine

/-! ### Well-formedness: a term that each check refuses, and one that it takes -/

theorem test_writePage_needs_256_samples :
    (Instr.writePage 0 0 0 [1, 2, 3]).wellFormed = false ∧
      (Instr.writePage 0 0 0 (List.replicate 256 0)).wellFormed = true := by
  decide +kernel

theorem test_setPartition_needs_8_counts :
    (Instr.setPartition 0 [1, 2, 3, 4, 5, 6, 7]).wellFormed = false ∧
      (Instr.setPartition 0 [1, 2, 3, 4, 5, 6, 7, 8]).wellFormed = true := by decide

theorem test_writeSteps_needs_its_count :
    (Instr.writeSteps 0 0 0 2 [0]).wellFormed = false ∧
      (Instr.writeSteps 0 0 0 1 [0]).wellFormed = true := by decide

theorem test_setRoute_needs_4_edges :
    (Instr.setRoute 0 0 0 1 [0, 1, 0]).wellFormed = false ∧
      (Instr.setRoute 0 0 0 1 [0, 1, 0, 1]).wellFormed = true := by decide

theorem test_importPageComplete_takes_512_bytes_at_most :
    (Instr.importPageComplete 0 (List.replicate 513 0)).wellFormed = false ∧
      (Instr.importPageComplete 0 (List.replicate 512 0)).wellFormed = true := by
  decide +kernel

theorem test_pageDecay_needs_512_bytes :
    (Instr.pageDecay 0 [0]).wellFormed = false ∧
      (Instr.pageDecay 0 (List.replicate 512 0)).wellFormed = true := by decide +kernel

/-! ### The spec's own numbers -/

/-- R9: the CRC of "123456789" is 29B1h, and of no bytes FFFFh. -/
theorem test_crc_of_the_digits :
    crc [0x31, 0x32, 0x33, 0x34, 0x35, 0x36, 0x37, 0x38, 0x39] = 0x29B1 ∧ crc [] = 0xFFFF := by
  decide +kernel

/-- R198: the character C5h on the line, and the rate of LINK_RATE code 3. -/
theorem test_character_levels :
    characterLevels 0xC5 = [false, true, false, true, false, false, false, true, true, true] ∧
      bitRate 3 = 12000000 := by decide

/-- The FENCE range of section 1.6, over pages 100 to 199. -/
def fence : List GuardRange := [⟨100, 199, .fence⟩]

/-- Section 1.6: images A, B and C are placed, A and C are freed, and the last request is refused. -/
theorem test_the_allocation_example :
    allocate fence 118 [⟨0, 32768⟩] = some (200, [⟨0, 200⟩, ⟨318, 32450⟩]) ∧
      allocate fence 50 [⟨0, 200⟩, ⟨318, 32450⟩] = some (0, [⟨50, 150⟩, ⟨318, 32450⟩]) ∧
      allocate fence 101 [⟨50, 150⟩, ⟨318, 32450⟩] = some (318, [⟨50, 150⟩, ⟨419, 32349⟩]) ∧
      giveBack ⟨200, 118⟩ [⟨50, 150⟩, ⟨419, 32349⟩] = [⟨50, 268⟩, ⟨419, 32349⟩] ∧
      giveBack ⟨318, 101⟩ [⟨50, 268⟩, ⟨419, 32349⟩] = [⟨50, 32718⟩] ∧
      allocate fence 32718 [⟨50, 32718⟩] = none := by decide

/-- The PLAY of section 4.7: its record is 21h, 09h, 2Ch, 05h, 04h, 00h, 00h, 00h. -/
theorem test_the_record_example :
    bytesOfRecord (Step.record
        (.play 300 4 .set .clear .keep .keep none (some ⟨.trig 1, false⟩))) =
      [0x21, 0x09, 0x2C, 0x05, 0x04, 0x00, 0x00, 0x00] ∧
    checkRecord 0x00000004052C0921 =
      .ok (.play 300 4 .set .clear .keep .keep none (some ⟨.trig 1, false⟩)) := ⟨by decide, rfl⟩

/-- Section 4.7: a TIMER with tap 9 fails with TAP, a LOOP with count 0 with COUNT. -/
theorem test_the_failing_records :
    checkRecord 0x0000000500000907 = .error .tap ∧
      checkRecord 0x0000000000030002 = .error .count := ⟨rfl, rfl⟩

/-- Section 4.8: the window sizes after SET PARTITION. -/
theorem test_the_partition_example :
    sizesOf [4, 12, 8, 8, 8, 8, 8, 8] = #v[256, 768, 512, 512, 512, 512, 512, 512] := by decide

/-- Settings of a gain and an offset, the clamp pair the widest. -/
def settings (gain offset : Half) : OutputSettings :=
  ⟨gain, offset, 0x8000, 0x7FFF, 0, true, false, false⟩

/-- Section 8.8: the rows of the worked arithmetic, the value before saturation and the code. -/
theorem test_the_arithmetic_example :
    scaledCode (settings 0x2000 0) none 1001 = 501 ∧
      scaledCode (settings 0x2000 0) none (BitVec.ofInt 16 (-1001)) = -501 ∧
      scaledCode (settings 0x4000 0xFFFF) (some 0x2000) 3 = 1 ∧
      scaledCode (settings 0x7FFF 0) none 100 = 200 ∧
      scaledCode (settings 0x6000 (BitVec.ofInt 16 (-2000))) none 30000 = 43000 ∧
      saturate (settings 0x6000 0) 43000 = (0x7FFF, true) ∧
      scaledCode (settings 0x8000 0) (some 0x8000) 0x8000 = -131072 ∧
      saturate (settings 0x6000 0) 25000 = (25000, false) := by decide

/-- R207: request frames read as their requests; a frame of another length, and of no request kind. -/
theorem test_request_frames_are_read :
    decodeRequest ⟨0x38, 7, [0x03, 0x34, 0x12, 0x0F, 0x01]⟩ = .request (.run 7 3 0x1234 15 1) ∧
      decodeRequest ⟨0x18, 1, [2, 0x28, 0, 0x3B, 0, 1]⟩ = .request (.setGuard 1 2 40 59 1) ∧
      decodeRequest ⟨0x4A, 9, [6, 4, 0, 0, 0]⟩ = .request (.setRate 9 6 4) ∧
      decodeRequest ⟨0x38, 7, [0x03]⟩ = .badLength ∧
      decodeRequest ⟨0x07, 7, []⟩ = .unknownKind := by decide

/-! ### States that meet the hypotheses of the statements -/

/-- An image of 2 pages at pages 0 and 1, of 300 samples. -/
def image (phase : ImagePhase) (source : FillSource) (refs : Nat) : Image :=
  ⟨0, 1, 0, 2, 300, source, phase, refs⟩

/-- The state after reset with the images of handle 1023, and one free extent behind them. -/
def holding (current incoming : Option Image) : State :=
  { State.reset with handles := [(1023, ⟨current, incoming⟩)], free := [⟨2, 32766⟩] }

/-- The state after reset with another link. -/
def linked (l : Link) : State := { State.reset with link := l }

/-- The state after reset with another engine of channel 7. -/
def engined (e : Engine) : State := State.reset.setEngine 7 e

/-- The state after reset with another clock. -/
def clocked (k : Clock) : State := { State.reset with clock := k }

/-- A clock in a switch to EXTERNAL, and in one to INTERNAL. -/
def toExternal : Clock := ⟨.internal, .switching .external .request, .searching, true, some 62500000, 0⟩

def toInternal (k : SwitchCause) : Clock := ⟨.external, .switching .internal k, .off, true, none, 0⟩

def onExternal : Clock := ⟨.external, .steady, .locked, false, none, 0⟩

/-- The state after reset with another scanner. -/
def scanning (x : Scanner) : State := { State.reset with scanner := x }

/-- The state after reset with another Guard Table. -/
def guarding (level : LockLevel) (line : Bool) : State :=
  { State.reset with guards := { GuardTable.reset with level := level, line := line } }

/-- An engine of a run state and an activity. -/
def inRun (run : RunState) (activity : Activity) : Engine :=
  { Engine.reset with run := run, activity := activity }

/-- A play record of the image of `image`. -/
def playing (position : Nat) : PlayRecord :=
  ⟨1, 0, 2, 300, 3, 1, none, none, .keep, .keep, 1, 0, position⟩

/-- An import of the image of `image` into handle 1023, at a page. -/
def importing (page : Nat) : State :=
  { holding none (some (image (.loading false (List.range page)) .imported 0)) with
    importer := ⟨some ⟨1023, 1, 0, 300, 2, page, false⟩, some ⟨page, 512 * page, 88⟩, false, page + 1⟩ }

/-- R172, R173: the lines of the library port while IDLE and while READING, and the order of the bits. -/
theorem test_library_port_lines :
    State.reset.chipSelectHigh = true ∧ State.reset.flashClockRuns = false ∧
    State.reset.flashDataOut = [] ∧
    flashBits 0x03 = [false, false, false, false, false, false, true, true] ∧
    flashByte (flashBits 0xC5) = 0xC5 ∧
    (importing 1).chipSelectHigh = false ∧
    (importing 1).flashDataOut = [0x03, 0x00, 0x02, 0x00].flatMap flashBits := by decide

theorem test_front_command_hypotheses :
    ({ State.reset with pending := [.frameSent] } : State).pending = .frameSent :: [] := rfl

/-- R141, R162: the events that wait for the hold to drop, as `StepOnAnEmptyQueue` says them. -/
abbrev waits (s : State) (e : Instr) : Prop :=
  (∃ c : Chan, e = .samplePeriod c ∧ (s.clock.hold = true ∨ (s.engine c).held = true)) ∨
    ∃ k : Fin 7, e = .timeBaseTap k ∧ s.clock.hold = true

theorem test_empty_queue_hypotheses :
    State.reset.pending = [] ∧
    (let s := { clocked { Clock.reset with hold := true } with
        handed := [.samplePeriod 0, .timeBaseTap 3, .lockTimeoutExpiry, .samplePeriod 1] };
      s.handed = [.samplePeriod 0, .timeBaseTap 3] ++ .lockTimeoutExpiry :: [.samplePeriod 1] ∧
        (∀ x ∈ ([.samplePeriod 0, .timeBaseTap 3] : List Instr), waits s x) ∧
        ¬waits s .lockTimeoutExpiry ∧ s.ownEvent = some .lockTimeoutExpiry) ∧
    (let s := { engined { Engine.reset with run := .armed, held := true } with
        handed := [.samplePeriod 7, .samplePeriod 0] };
      s.handed = [.samplePeriod 7] ++ .samplePeriod 0 :: [] ∧ waits s (.samplePeriod 7) ∧
        ¬waits s (.samplePeriod 0) ∧ s.ownEvent = some (.samplePeriod 0)) ∧
    (let s := { linked { Link.reset with requests := [⟨1, 0, []⟩] } with
        clock := { Clock.reset with hold := true }, handed := [.samplePeriod 3] };
      (∀ x ∈ s.handed, waits s x) ∧ s.inReset = false ∧ s.link.ready = true ∧
        s.link.requests ≠ []) ∧
    ((∀ x ∈ State.reset.handed, waits State.reset x) ∧ State.reset.link.requests = []) := by decide

theorem test_master_period_hypotheses :
    ({ State.reset with inReset := true } : State).inReset = true ∧
    (State.reset.inReset = false ∧ State.reset.clock.hold = false ∧
      State.reset.clock.lockTimeout = none) ∧
    (let s := clocked { Clock.reset with hold := true };
      s.clock.hold = true ∧ s.clock.lockTimeout = none) ∧
    (let s := clocked { Clock.reset with hold := true, lockTimeout := some 0 };
      s.clock.hold = true ∧ s.clock.lockTimeout = some 0) ∧
    (let s := clocked { Clock.reset with hold := true, lockTimeout := some 1 };
      s.clock.lockTimeout = some (0 + 1)) ∧
    (clocked toExternal).clock.lockTimeout = some (62499999 + 1) := by decide

/-- R146: at the last counted master period of the chain every tap is handed on, and at the first of tap
T0 alone; R143: a channel whose phase reaches its decimation is handed its sample period. -/
theorem test_a_tick_hands_on_exactly_what_is_due :
    (clocked { Clock.reset with timeBase := 249999999 }).tick.handed =
      allChannels.map Instr.samplePeriod ++ dividedTaps.map Instr.timeBaseTap ∧
    ({ State.reset with
        channels := Vector.replicate 8 { Channel.reset with rate := ⟨2, 0⟩ }
        clock := { Clock.reset with timeBase := 249 } } : State).tick.handed = [.timeBaseTap 0] := by
  decide

/-- A number of frames that wait, and a number of link replies. -/
def waitingWith (n replies : Nat) : State :=
  linked { Link.reset with
    requests := List.replicate n ⟨1, 0, []⟩, linkReplies := List.replicate replies ⟨0xF3, 0, []⟩ }

/-- Three and four frames that wait, with one place left in the link reply list. -/
abbrev waiting (n : Nat) : State := waitingWith n 149

theorem test_waiting_request_hypotheses :
    encodeRequest (.readDevice 5) = some ⟨0x02, 5, []⟩ ∧
    ({ State.reset with inReset := true } : State).inReset = true ∧
    (let s := linked { Link.reset with standby := true };
      s.inReset = false ∧ s.link.standby = true ∧ Frame.wakes ⟨0x02, 5, []⟩ = false) ∧
    ((waiting 3).inReset = false ∧ (waiting 3).link.standby = false ∧ (waiting 3).link.requests ≠ [] ∧
      (waiting 3).link.requests.length < 4) ∧
    ((waiting 4).link.requests ≠ [] ∧ 4 ≤ (waiting 4).link.requests.length ∧
      (waiting 4).link.linkReplies.length < 150) ∧
    ((waitingWith 4 150).inReset = false ∧ (waitingWith 4 150).link.standby = false ∧
      (waitingWith 4 150).link.requests ≠ [] ∧ 4 ≤ (waitingWith 4 150).link.requests.length ∧
      150 ≤ (waitingWith 4 150).link.linkReplies.length) ∧
    (encodeRequest (.wake 5) = some ⟨0x05, 5, []⟩ ∧ Frame.wakes ⟨0x05, 5, []⟩ = true ∧
      (let s := linked { (waiting 4).link with standby := true };
        s.link.standby = true ∧ s.link.requests ≠ [] ∧ 4 ≤ s.link.requests.length)) := by
  decide +kernel

theorem test_front_frame_hypotheses :
    (let s := linked { Link.reset with requests := [⟨0x06, 9, [1]⟩] };
      encodeRequest (.setNotices 9 1) = some ⟨0x06, 9, [1]⟩ ∧
        (Instr.setNotices 9 1).wellFormed = true ∧ s.inReset = false ∧ s.link.standby = false ∧
        s.link.ready = true ∧ s.link.requests = [⟨0x06, 9, [1]⟩]) ∧
    (let s := linked { Link.reset with requests := [⟨0x07, 9, []⟩, ⟨0x01, 0, []⟩] };
      s.inReset = false ∧ s.link.ready = true ∧
        s.link.requests = ⟨0x07, 9, []⟩ :: [⟨0x01, 0, []⟩] ∧ payloadLength 0x07 [] = none) ∧
    (payloadLength 0x06 [] = some 1 ∧ ([] : List Byte).length ≠ 1) := by decide

theorem test_request_round_trip_hypotheses :
    (Instr.writeSteps 1 7 0xFFFF 1 [0]).wellFormed = true ∧
    (encodeRequest (.writeSteps 1 7 0xFFFF 1 [0])).isSome = true ∧
    (Instr.setOutput 1 7 0x8000 0x7FFF 0 0xFFFF 1 255 0 1).wellFormed = true := by decide

theorem test_sent_frame_hypotheses :
    (List.replicate 1032 (0 : Byte)).length ≤ 1032 ∧ State.reset.link.receive = .hunt :=
  ⟨Nat.le_of_eq List.length_replicate, rfl⟩

theorem test_operand_out_of_range_hypotheses :
    State.reset.open = true ∧ ([0, 1, 0, 2] : List Byte).length = 4 ∧
    ([0] : List (BitVec 64)).length = (1 : Byte).toNat ∧ 1023 < (1024 : Half).toNat ∧
    7 < (8 : Byte).toNat ∧ 15 < (16 : Byte).toNat ∧ 1 < (2 : Byte).toNat ∧ 2 < (3 : Byte).toNat ∧
    (2 : Byte) ∈ ([0, 1, 0, 2] : List Byte) := by decide

/-- The state after reset with the receive assembly in a state of its own, one place left in the link
reply list. -/
def taking (r : Receive) : State :=
  linked { Link.reset with receive := r, linkReplies := List.replicate 149 ⟨0xF3, 0, []⟩ }

theorem test_character_hypotheses :
    ((taking .hunt).inReset = false ∧ (taking .hunt).link.linkReplies.length < 150) ∧
    (taking .hunt).link.receive = .hunt ∧
    ((taking (.header [])).link.receive = .header [] ∧ ([] : List Byte).length < 2) ∧
    ((taking (.header [1, 2])).link.receive = .header [1, 2] ∧ ([1, 2] : List Byte).length < 3 ∧
      (taking (.header [1, 2])).link.receive.tag? = some 2) ∧
    ((taking (.header [1, 2, 8])).link.receive = .header [1, 2, 8] ∧
      (twoBytes 8 4).toNat = 1032 ∧ 1032 < (twoBytes 9 4).toNat ∧ twoBytes 0 0 = 0) ∧
    (taking (.payload 1 2 3 [4, 5])).link.receive = .payload 1 2 3 [4, 5] ∧
    (taking (.check 1 2 [] none)).link.receive = .check 1 2 [] none ∧
    ((taking (.check 1 2 [] (some 0))).link.receive = .check 1 2 [] (some 0) ∧
      crc (Frame.checkedBytes ⟨1, 2, []⟩) ≠ twoBytes 0 0) ∧
    (let low := (crc (Frame.checkedBytes ⟨1, 2, []⟩)).extractLsb' 0 8;
      let high := (crc (Frame.checkedBytes ⟨1, 2, []⟩)).extractLsb' 8 8;
      (taking (.check 1 2 [] (some low))).link.receive = .check 1 2 [] (some low) ∧
        crc (Frame.checkedBytes ⟨1, 2, []⟩) = twoBytes low high ∧
        (taking .hunt).link.standby = false ∧ (taking .hunt).link.requests.length < 4) ∧
    (taking .discard).link.receive = .discard := by decide +kernel

/-- A notice as the queue holds it. -/
def queued : QueuedNotice := ⟨.timer 7, false⟩

theorem test_notice_and_transmitter_hypotheses :
    ((linked { Link.reset with mask := 0 }).link.mask.getLsbD 6 = false) ∧
    (Notice.type (.reference .internal .lost) = 7 ∧ State.reset.link.mask.getLsbD 6 = true) ∧
    (let s := linked { Link.reset with notices := List.replicate 31 queued };
      s.link.mask.getLsbD (Notice.type (.timer 0) - 1) = true ∧ s.link.notices.length < 32) ∧
    (32 ≤ (List.replicate 32 queued).length) ∧
    ({ Link.reset with sending := some .reply } : Link).sending = some .reply ∧
    (let l : Link := { Link.reset with linkReplies := [⟨0xF1, 0, []⟩] };
      l.sending = none ∧ l.linkReplies ≠ []) ∧
    (let l : Link := { Link.reset with slot := some ⟨0x81, 0, []⟩, notices := [queued] };
      l.sending = none ∧ l.linkReplies = [] ∧ l.slot = some ⟨0x81, 0, []⟩ ∧ l.notices = queued :: []) ∧
    (let l : Link := { Link.reset with slot := some ⟨0x81, 0, []⟩ };
      l.slot = some ⟨0x81, 0, []⟩ ∧ l.notices = []) ∧
    (let l : Link := { Link.reset with notices := [queued] };
      l.slot = none ∧ l.notices = queued :: []) ∧
    (Link.reset.sending = none ∧ Link.reset.linkReplies = [] ∧ Link.reset.slot = none ∧
      Link.reset.notices = []) ∧
    (let s := linked { Link.reset with sending := some .reply, slot := some ⟨0x81, 0, []⟩ };
      s.inReset = false ∧ s.link.sending = some .reply ∧ s.link.awaiting = none) ∧
    ({ Link.reset with sending := some .linkReply } : Link).sending = some .linkReply ∧
    ({ Link.reset with sending := some (.notice queued) } : Link).sending = some (.notice queued) := by
  decide

/-- The state in which a request is handed on at once: the state after reset. -/
theorem test_requests_are_handed_on_at_once : State.reset.open = true := by decide

theorem test_link_request_hypotheses :
    (0x80 : Byte).msb = true ∧ (0x7F : Byte).msb = false ∧
    ((∀ c : Chan, (State.reset.engine c).run = .idle ∨ (State.reset.engine c).run = .faulted) ∧
      State.reset.importer.record = none ∧ State.reset.clock.state = .steady) ∧
    (engined (inRun .armed .between)).open = true ∧
    ((engined (inRun .armed .between)).engine 7).run = .armed := by decide

/-- A block of 2 pages left, at page 4 of the range 0 to 4, in standby; the image of `image` in handle
1023. -/
def standing (x : WalkState) (current : Option Image) (cursor : Nat) : State :=
  { holding current none with
    link := { Link.reset with standby := true }
    selfRefresh := true
    scanner := { Scanner.reset with
      walk := x, suspended := true, rangeEnd := 4, cursor := cursor, blockRemaining := some 2 } }

/-- The read that a WAKE begins comes round the range: page 4 is passed over, page 0 is to be read. -/
theorem test_standby_hypotheses :
    (let s := linked { Link.reset with
        sending := some .reply, slot := some ⟨0x84, 0, [0]⟩, awaiting := some .standby };
      s.inReset = false ∧ s.link.sending = some .reply ∧ s.link.awaiting = some .standby) ∧
    (let s := { linked { Link.reset with standby := true } with
        selfRefresh := true, scanner := { Scanner.reset with suspended := true } };
      s.inReset = false ∧ s.link.standby = true ∧ s.link.ready = true ∧ s.link.requests = [] ∧
        s.scanner.blockRemaining = none) ∧
    (let i := image (.ready .good 0) .requests 0;
      let s := standing .on (some i) 4;
      s.link.standby = true ∧ s.link.ready = true ∧ s.link.requests = [] ∧
        s.scanner.blockRemaining = some 2 ∧
        (∀ j, j < 1 → s.toRead (s.scanner.after j).cursor = none) ∧
        (s.scanner.after 1).cursor = 0 ∧ s.toRead (s.scanner.after 1).cursor = some i) ∧
    (let s := standing .stopping none 3;
      (∀ j, j < 2 → s.toRead (s.scanner.after j).cursor = none) ∧ s.scanner.walk = .stopping) ∧
    (standing .on none 3).scanner.walk = .on := by decide

theorem test_standing_scanners_are_in_range :
    (standing .on none 4).scanner.inRange ∧ (standing .stopping none 0).scanner.inRange := by
  constructor <;> (unfold Scanner.inRange; decide)

theorem test_engine_reset_hypotheses :
    let s := linked { Link.reset with
      sending := some .reply, slot := some ⟨0x83, 0, [0]⟩, awaiting := some .engineReset };
    s.inReset = false ∧ s.link.sending = some .reply ∧ s.link.awaiting = some .engineReset ∧
      s.importer.record = none ∧ ∀ c : Chan, s.playOf c = none := by decide

theorem test_reset_hypotheses :
    State.reset.inReset = false ∧
    (guarding .frozen true).guards.level = .frozen ∧
    (guarding .line false).guards.level ≠ .frozen ∧
    (let s := { State.reset with inReset := true };
      s.inReset = true ∧ s.straps.refDefault = false) ∧
    (let s := { State.reset with inReset := true, straps := ⟨3, true, true⟩ };
      s.inReset = true ∧ s.straps.refDefault = true) := by decide

/-- The commands of the statements about resets answer a next state. -/
theorem test_resets_answer_a_next_state :
    (∃ t, exec (.powerOnReset 0 true false) State.reset = .next t) ∧
    (∃ t, exec .resetLine State.reset = .next t) ∧
    (∃ t, exec .engineResetPerformed State.reset = .next t) ∧
    (∃ t, exec .standbyBegin State.reset = .next t) ∧
    (∃ t, exec (.wake 0) State.reset = .next t) :=
  ⟨⟨_, rfl⟩, ⟨_, rfl⟩, ⟨_, rfl⟩, ⟨_, rfl⟩, ⟨_, rfl⟩⟩

theorem test_line_hypotheses :
    (State.reset.lines[3].high = false) ∧
    (let s := { State.reset with lines := State.reset.lines.set 0 ⟨false, true⟩ };
      s.lines[0].falling = true) ∧
    (State.reset.inReset = false ∧ State.reset.lines[3].high = State.reset.lines[3].falling) := by
  decide

/-- A channel 7 in each activity that `GoesOnTo` tells apart, RUNNING; in a WAIT whose condition is false,
and in one whose condition is true. -/
theorem test_going_on_hypotheses :
    (let s := engined (inRun .running (.playing (playing 0)));
      (s.playOf 7).isSome = true) ∧
    (engined (inRun .running .between)).engine 7 = inRun .running .between ∧
    (let s := engined (inRun .running (.waiting ⟨⟨.soft, false⟩, .rest⟩));
      (s.engine 7).activity = .waiting ⟨⟨.soft, false⟩, .rest⟩ ∧ s.operand 7 .soft = false) ∧
    (let s := engined (inRun .running (.waiting ⟨⟨.soft, true⟩, .holdLast⟩));
      (s.engine 7).activity = .waiting ⟨⟨.soft, true⟩, .holdLast⟩ ∧ s.operand 7 .soft ≠ true) := by
  decide

/-- A channel that starts, with a reason set and with none. -/
theorem test_start_hypotheses :
    ((engined { inRun .armed .between with requestPause := true }).engine 7).requestPause = true ∧
    (let s := engined (inRun .armed .between);
      (s.engine 7).requestPause = false ∧ (s.engine 7).linePause = false) := by decide

/-- A change of the line at a channel 7: RUNNING with a reason, PAUSED with none, held and not held, and
neither; and what the fall does in a WAIT. -/
theorem test_pause_line_at_a_channel_hypotheses :
    (let s := { engined { inRun .running .between with pauseRouting := true } with pauseLine := true };
      (s.engine 7).run = .running ∧ (s.pauseLine && (s.engine 7).pauseRouting) = true) ∧
    (let s := engined { inRun .paused .between with linePause := true, held := true };
      (s.engine 7).run = .paused ∧ (s.engine 7).held = true ∧ (s.engine 7).requestPause = false ∧
        (s.pauseLine && (s.engine 7).pauseRouting) = false) ∧
    (let s := engined { inRun .paused (.waiting ⟨⟨.soft, false⟩, .rest⟩) with linePause := true };
      (s.engine 7).run = .paused ∧ (s.engine 7).held = false ∧ (s.engine 7).requestPause = false ∧
        s.followPauseLine 7 = engined (inRun .running (.waiting ⟨⟨.soft, false⟩, .rest⟩))) ∧
    (State.reset.engine 7).run = .idle := by decide

theorem test_pause_line_hypotheses :
    (let s := engined { inRun .paused (.playing (playing 0)) with pauseRouting := true };
      ∀ c : Chan, (s.engine c).run = .paused →
        (s.engine c).requestPause = true ∨ (s.engine c).pauseRouting = true) ∧
    (let s := engined { inRun .paused (.playing (playing 0)) with
        pauseRouting := true, linePause := true };
      (∀ c : Chan, (s.engine c).run = .paused → (s.engine c).requestPause = false →
        (s.playOf c).isSome = true) ∧
      (∀ c : Chan, (s.engine c).run = .running → (s.engine c).requestPause = false)) := by decide

theorem test_set_reference_hypotheses :
    Source.ofCode 2 = none ∧
    (Source.ofCode 1 = some .external ∧ (clocked toExternal).open = true ∧
      (clocked toExternal).clock.state = .switching .external .request) ∧
    (Source.ofCode 0 = some State.reset.clock.source ∧ State.reset.clock.state = .steady) ∧
    (State.reset.clock.source = .internal ∧ State.reset.clock.state = .steady) ∧
    ((clocked onExternal).open = true ∧ (clocked onExternal).clock.source = .external ∧
      (clocked onExternal).clock.state = .steady) := by decide

theorem test_switch_end_hypotheses :
    (clocked toExternal).inReset = false ∧
    (clocked toExternal).clock.state = .switching .external .request ∧
    (clocked (toInternal .request)).clock.state = .switching .internal .request ∧
    (clocked (toInternal .loss)).clock.state = .switching .internal .loss ∧
    ((clocked onExternal).clock.state = .steady ∧ (clocked onExternal).clock.source = .external) ∧
    State.reset.clock.source = .internal := by decide

theorem test_no_switch_to_end_hypotheses :
    (∀ k, State.reset.clock.state ≠ .switching .external k) ∧
      (∀ k, (clocked (toInternal .loss)).clock.state ≠ .switching .external k) ∧
      (∀ k, State.reset.clock.state ≠ .switching .internal k) ∧
      (∀ k, (clocked toExternal).clock.state ≠ .switching .internal k) := by
  refine ⟨?_, ?_, ?_, ?_⟩ <;> (intro k h; cases h)

theorem test_hold_hypotheses :
    (let s := { engined (inRun .armed .between) with clock := toExternal };
      s.inReset = false ∧ s.clock.hold = true ∧ (s.engine 7).run.active = true) ∧
    ((clocked toExternal).clock.hold = true ∧ (State.reset.engine 0).run.active = false) ∧
    (let s := engined { inRun .paused (.playing (playing 0)) with held := true };
      s.clock.hold = false ∧ .holdRaise (.channel 7) ∉ s.handed ∧ (s.engine 7).held = true ∧
        (s.engine 7).run = .paused) ∧
    (let s := engined { inRun .running (.playing (playing 0)) with held := true };
      (s.engine 7).held = true ∧ (s.engine 7).run = .running ∧ (s.playOf 7).isSome = true) ∧
    (.holdRaise .scanner ∉ State.reset.handed ∧ (State.reset.engine 0).held = false) := by decide

/-- A channel 7 that is held, with events handed. -/
def heldWith (e : Engine) (handed : List Instr) : State :=
  { engined { e with held := true } with handed := handed }

/-- The raise handed while the hold is dropped, the drop handed while it is raised, and neither; nothing
stands handed to the channel before, but for a sample period. -/
theorem test_handed_hold_hypotheses :
    let raise : Instr := .holdRaise (.channel 7);
    let drop : Instr := .holdDrop (.channel 7);
    (let s := { State.reset with handed := [raise] };
      s.clock.hold = false ∧ raise ∈ s.handed ∧ s.signalsBefore 7 raise = []) ∧
    (State.reset.clock.hold = false ∧ raise ∉ State.reset.handed) ∧
    ((clocked toExternal).clock.hold = true ∧ drop ∉ (clocked toExternal).handed ∧
      (clocked toExternal).signalsBefore 7 raise = []) ∧
    (let s := { clocked toExternal with handed := [drop] };
      s.clock.hold = true ∧ drop ∈ s.handed ∧ s.signalsBefore 7 drop = []) ∧
    (let s := { State.reset with handed := [.samplePeriod 7, .holdRaise (.channel 0), drop, raise, drop] };
      s.signalsBefore 7 drop = [] ∧ s.periodsBefore 7 drop = 1 ∧ s.signalsBefore 7 raise = [drop]) := by
  decide

/-- A newer hold stands and channel 7, which a RUN armed in it, takes the drop of the earlier hold: it stays
held, and the drop has been taken. -/
theorem test_an_old_drop_leaves_a_channel_held :
    let s := { heldWith { inRun .armed .between with start := some ⟨.always, false⟩ }
        [.holdDrop (.channel 7), .holdRaise (.channel 7)] with clock := toExternal };
    s.inReset = false ∧ s.clock.hold = true ∧ .holdDrop (.channel 7) ∈ s.handed ∧
      (s.engine 7).held = true ∧
      exec (.holdDrop (.channel 7)) s =
        .next { s with handed := [.holdRaise (.channel 7)] }.transmit := ⟨rfl, rfl, by decide, rfl, rfl⟩

/-- The hold has dropped, and a channel that a RUN armed since takes the raise of that hold: it stays
free. -/
theorem test_an_old_raise_leaves_a_channel_free :
    let s := { engined { inRun .armed .between with start := some ⟨.soft, false⟩ } with
      handed := [.holdRaise (.channel 7), .holdDrop (.channel 7)] };
    s.inReset = false ∧ s.clock.hold = false ∧ (s.engine 7).run.active = true ∧
      exec (.holdRaise (.channel 7)) s =
        .next { s with handed := [.holdDrop (.channel 7)] }.transmit := ⟨rfl, rfl, rfl, rfl⟩

/-- Channel 7 ARMED on the software trigger with its latch set and a pause reason, so that it starts PAUSED,
with events handed. -/
def triggered (held : Bool) (handed : List Instr) : State :=
  { (engined { inRun .armed .between with
        start := some ⟨.soft, false⟩, held := held, requestPause := true }).setLatches 7 ⟨0, 0, true⟩ with
    handed := handed }

/-- A sample period that was handed before the hold, or before an operand change, is taken before the start
at the drop or at the change, so that no sample is delivered in it. -/
theorem test_an_old_sample_period_is_taken_before_the_start :
    (∃ t, exec (.holdDrop (.channel 7)) (triggered true [.samplePeriod 7, .holdDrop (.channel 7)]) =
        .next t ∧ t.handed = [] ∧ (t.engine 7).run = .paused) ∧
    (∃ t, exec (.operandChange 7) (triggered false [.samplePeriod 7, .operandChange 7]) =
        .next t ∧ t.handed = [] ∧ (t.engine 7).run = .paused) :=
  ⟨⟨_, rfl, rfl, rfl⟩, ⟨_, rfl, rfl, rfl⟩⟩

/-- An operand change, and the drop at a held channel, that stand handed before a sample period are taken
before it. -/
theorem test_a_sample_period_waits_its_turn :
    (∃ t, exec (.samplePeriod 7) (triggered false [.operandChange 7, .samplePeriod 7]) =
        .next t ∧ t.handed = [] ∧ (t.engine 7).run = .paused) ∧
    (∃ t, exec (.samplePeriod 7) (triggered true [.holdDrop (.channel 7), .samplePeriod 7]) =
        .next t ∧ t.handed = [] ∧ (t.engine 7).run = .paused) :=
  ⟨⟨_, rfl, rfl, rfl⟩, ⟨_, rfl, rfl, rfl⟩⟩

/-- The order of the events at one channel: a sample period passed outside a hold and withdrawn in one, a
channel that passes none, and an event with another before it. -/
theorem test_channel_order_hypotheses :
    (let s := triggered false [.samplePeriod 7, .operandChange 7];
      s.inReset = false ∧ s.clock.hold = false ∧ (s.engine 7).run = .armed ∧
        (s.engine 7).held = false ∧ s.signalsBefore 7 (.samplePeriod 7) = [] ∧
        s.signalsBefore 7 (.operandChange 7) = [] ∧ s.periodsBefore 7 (.operandChange 7) = 1) ∧
    (let s := { triggered false [.samplePeriod 7] with clock := toExternal };
      s.clock.hold = true ∧ (s.engine 7).run = .armed) ∧
    (State.reset.engine 7).run = .idle ∧
    (let s := engined (inRun .running .between);
      (s.engine 7).run = .running ∧ s.playOf 7 = none) ∧
    (let s := triggered false [.operandChange 7, .samplePeriod 7];
      let t := s.takeSignals (s.signalsBefore 7 (.samplePeriod 7));
      s.signalsBefore 7 (.samplePeriod 7) = [.operandChange 7] ∧ signalsAt 7 (.operandChange 7) = true ∧
        t.inReset = false ∧ t.clock.hold = s.clock.hold ∧ .samplePeriod 7 ∈ t.handed ∧
        t.signalsBefore 7 (.samplePeriod 7) = []) ∧
    (let s := triggered true [.holdRaise (.channel 7), .operandChange 7, .holdDrop (.channel 7)];
      let e : Instr := .holdDrop (.channel 7);
      let t := s.takeSignals (s.signalsBefore 7 e);
      s.signalsBefore 7 e = [.holdRaise (.channel 7), .operandChange 7] ∧ e ∈ s.handed ∧
        t.inReset = false ∧ t.clock.hold = s.clock.hold ∧ e ∈ t.handed ∧ t.signalsBefore 7 e = []) := by
  decide +kernel

/-- A held channel that the drop reaches: RUNNING between steps and in a WAIT, ARMED with a start test that
is false, and with one that is true. -/
theorem test_held_channel_hypotheses :
    ((clocked toExternal).clock.hold = true ∧ (State.reset.engine 7).held = false) ∧
    (let s := heldWith (inRun .running .between) [];
      s.inReset = false ∧ s.clock.hold = false ∧ (s.engine 7).held = true ∧
        (s.engine 7).run = .running ∧ (s.engine 7).activity = .between) ∧
    (let s := heldWith (inRun .running (.waiting ⟨⟨.soft, false⟩, .rest⟩)) [.holdDrop (.channel 7)];
      (s.engine 7).held = true ∧ (s.engine 7).run = .running) ∧
    (let s := heldWith { inRun .armed .between with start := some ⟨.soft, false⟩ } [];
      (s.engine 7).run = .armed ∧ (s.engine 7).start = some ⟨.soft, false⟩ ∧
        s.operand 7 .soft = false) ∧
    (let s := heldWith { inRun .armed .between with start := some ⟨.soft, true⟩ } [];
      (s.engine 7).start = some ⟨.soft, true⟩ ∧ s.operand 7 .soft ≠ true) ∧
    (let s := heldWith (inRun .running .between) [.samplePeriod 7, .holdDrop (.channel 7)];
      let free := s.setEngine 7 { s.engine 7 with held := false };
      s.clock.hold = false ∧ s.signalsBefore 7 (.holdDrop (.channel 7)) = [] ∧
        ((free.passPeriods 7 (s.periodsBefore 7 (.holdDrop (.channel 7)))).engine 7).run ≠ .running) := by
  decide +kernel

theorem test_rate_hypotheses :
    (0 : Quad).toNat = 0 ∧ 65536 < (65537 : Quad).toNat ∧
    (1 ≤ (1 : Quad).toNat ∧ (65536 : Quad).toNat ≤ 65536) ∧
    ((engined (inRun .paused .between)).engine 7).run.active = true ∧
    (State.reset.engine 7).run.active = false ∧
    (State.reset.clock.state = .steady ∧ State.reset.clock.lockTimeout = none) ∧
    ((clocked toExternal).clock.state = .switching .external .request ∧
      (clocked toExternal).clock.lockTimeout = some 62500000) ∧
    ((clocked (toInternal .request)).clock.lockTimeout = none ∧
      (clocked (toInternal .request)).clock.state = .switching .internal .request) ∧
    ((clocked (toInternal .loss)).open = true ∧
      (clocked (toInternal .loss)).clock.state = .switching .internal .loss) := by decide

/-- In the states that list nothing handed, as those of the theorems below do, nothing stands handed before
an event. -/
theorem test_nothing_is_handed_before (s : State) (h : s.handed = []) (c : Chan) (e : Instr) :
    s.signalsBefore c e = [] ∧ s.periodsBefore c e = 0 := by
  simp [State.signalsBefore, State.periodsBefore, State.handedBefore, h]

/-- The engines, latches, timers and outputs of those states leave nothing handed. -/
theorem test_states_list_nothing_handed (e : Engine) (l : Latches) (t : Timer) (o : Output) :
    (engined e).handed = [] ∧ ((engined e).setLatches 7 l).handed = [] ∧
      ((engined e).setTimer 7 t).handed = [] ∧ ((engined e).setOutput 7 o).handed = [] :=
  ⟨rfl, rfl, rfl, rfl⟩

/-- An engine in a WAIT for the software trigger. -/
def inWait (run : RunState) (out : WaitOutput) (last : Option Half) : Engine :=
  { inRun run (.waiting ⟨⟨.soft, false⟩, out⟩) with lastCode := last }

theorem test_carrying_period_hypotheses :
    (clocked toExternal).clock.hold = true ∧
    ((engined { inRun .armed .between with held := true }).engine 7).held = true ∧
    (State.reset.inReset = false ∧ State.reset.clock.hold = false ∧
      (State.reset.engine 7).held = false ∧ (State.reset.engine 7).run.inProgram = false) ∧
    (let s := engined (inRun .paused .between);
      (s.engine 7).run = .paused ∧ (s.engine 7).activity = .between) ∧
    (let s := engined (inRun .paused (.playing (playing 0)));
      (s.engine 7).run = .paused ∧ (s.playOf 7).isSome = true ∧
        (s.chan 7).output.portKind = .rest) ∧
    (let s := engined (inWait .paused .rest (some 5));
      (s.engine 7).run.inProgram = true ∧
        (s.engine 7).activity = .waiting ⟨⟨.soft, false⟩, .rest⟩) ∧
    (let s := engined (inWait .running .holdLast none);
      (s.engine 7).run.inProgram = true ∧
        (s.engine 7).activity = .waiting ⟨⟨.soft, false⟩, .holdLast⟩ ∧
        (s.engine 7).lastCode = none) ∧
    (let s := engined (inWait .paused .holdLast (some 5));
      (s.engine 7).run.inProgram = true ∧ (s.engine 7).lastCode = some 5) ∧
    (let s := (engined (inRun .paused (.holding (playing 0)))).setOutput 7
        { Output.reset with port := 9, portKind := .played };
      (s.engine 7).run = .paused ∧ (s.playOf 7).isSome = true ∧
        (s.chan 7).output.portKind ≠ .rest) ∧
    (let s := engined (inRun .running .between);
      (s.engine 7).run = .running ∧ (s.engine 7).activity = .between) := by decide

/-- A play record of one pass with a hold condition, at a position. -/
def holdingPlay (position : Nat) : PlayRecord :=
  { playing position with passCount := 1, hold := some ⟨.soft, false⟩ }

theorem test_delivering_period_hypotheses :
    (let s := engined (inRun .running (.playing (playing 298)));
      s.inReset = false ∧ s.clock.hold = false ∧ (s.engine 7).run = .running ∧
        (s.engine 7).held = false ∧ (s.engine 7).activity = .playing (playing 298) ∧
        (playing 298).position + 1 < (playing 298).sampleLength) ∧
    (let s := engined (inRun .running (.holding (playing 298)));
      (s.engine 7).activity = .holding (playing 298)) ∧
    (let p := { playing 299 with passCount := 2 };
      let s := engined (inRun .running (.playing p));
      (s.engine 7).activity = .playing p ∧ p.sampleLength ≤ p.position + 1 ∧ p.pass < p.passCount) ∧
    (let p := playing 299;
      p.passCount ≤ p.pass ∧ p.sampleLength ≤ p.position + 1 ∧ p.hold = none) ∧
    (let s := engined (inRun .running (.holding (holdingPlay 299)));
      (holdingPlay 299).hold = some ⟨.soft, false⟩ ∧
        (holdingPlay 299).passCount ≤ (holdingPlay 299).pass ∧
        s.operand 7 .soft = (⟨.soft, false⟩ : Condition).negated) ∧
    (let s := (engined (inRun .running (.holding (holdingPlay 299)))).setLatches 7 ⟨0, 0, true⟩;
      s.operand 7 .soft ≠ (⟨.soft, false⟩ : Condition).negated) ∧
    (let s := (engined (inRun .running (.playing (playing 299)))).setTimer 7 ⟨true, 1, 7, false, true⟩;
      (s.timer 7).running = true ∧ (s.timer 7).tap = 7 ∧ (s.timer 7).count ≤ 1) ∧
    ((engined { inRun .running (.playing (playing 299)) with stopPending := true }).engine
      7).stopPending = true ∧
    ((engined (inRun .running (.playing (playing 299)))).engine 7).stopPending = false := by decide

/-- R162, R168: in a hold a sample period that was handed on before changes nothing and stays handed. -/
theorem test_a_handed_sample_period_waits_for_the_drop :
    (let s := { State.reset with clock := toExternal, handed := [.samplePeriod 7] };
      exec (.samplePeriod 7) s = .next s.transmit ∧ s.transmit = s ∧ s.ownEvent = none) :=
  ⟨rfl, rfl, rfl⟩

theorem test_rounding_and_clamp_hypotheses :
    2 * (roundQuotient 134217728 * 268435456 - 134217728) = 268435456 ∧
    2 * (roundQuotient (-134217728) * 268435456 - -134217728) = -268435456 ∧
    (let g := settings 0x4000 0;
      g.clampLow.toInt ≤ g.clampHigh.toInt ∧ (-32769 : Int) < g.clampLow.toInt ∧
        g.clampHigh.toInt < 32768 ∧ g.clampLow.toInt ≤ -32768 ∧ (32767 : Int) ≤ g.clampHigh.toInt) := by
  decide

theorem test_tap_and_timer_hypotheses :
    (.timeBaseTap 6 ∉ State.reset.handed ∧ (clocked toExternal).clock.hold = true) ∧
    (let s := { State.reset.setTimer 7 ⟨true, 2, 3, false, true⟩ with
        handed := [.timeBaseTap 3], scanner :=
          { Scanner.reset with walk := .on, intervalRemaining := some 2 } };
      s.inReset = false ∧ s.clock.hold = false ∧ .timeBaseTap 3 ∈ s.handed ∧
        (∀ c : Chan, (s.timer c).running = true → (s.timer c).tap.val = 3 → 1 < (s.timer c).count) ∧
        s.scanner.counting = true ∧ s.scanner.intervalRemaining = some 2) ∧
    (let s := { (State.reset.setTimer 7 ⟨true, 1, 0, false, true⟩).setTimer 0
          ⟨true, 2, 0, false, true⟩ with handed := [.timeBaseTap 0] };
      (s.timer 7).running = true ∧ (s.timer 7).tap.val = 0 ∧ (s.timer 7).count ≤ 1 ∧
        ∀ c : Chan, c ≠ 7 → (s.timer c).running = true → (s.timer c).tap.val = 0 →
          1 < (s.timer c).count) ∧
    (let s := State.reset.setTimer 7 ⟨true, 1, 6, false, true⟩;
      (s.timer 7).running = true ∧ (s.timer 7).count ≤ 1 ∧ (s.timer 7).tap.val = (6 : Fin 7).val) ∧
    (State.reset.timer 7).running = false ∧
    1 < ((State.reset.setTimer 7 ⟨true, 2, 0, false, true⟩).timer 7).count ∧
    ((State.reset.setTimer 7 ⟨true, 1, 7, false, true⟩).timer 7).tap = 7 := by decide

/-- R146: tap T3, not handed on, is its divider reaching its count: the faster taps fall at the same master
period. -/
theorem test_a_tap_brings_the_faster_taps_with_it :
    (State.reset.divide 3).clock.timeBase = 250000 ∧
    (State.reset.divide 3).handed = [.timeBaseTap 0, .timeBaseTap 1, .timeBaseTap 2] := by decide

/-- R141, R151: in a hold a timer at its last count keeps it; R149: a T7 timer has no tap to expire by. -/
theorem test_timers_keep_their_counts :
    (let s := { State.reset.setTimer 7 ⟨true, 1, 0, false, true⟩ with clock := toExternal };
      exec (.timerExpiry 7) s = .next s.transmit) ∧
    (let s := State.reset.setTimer 7 ⟨true, 1, 7, false, true⟩;
      exec (.timerExpiry 7) s = .next s.transmit) := ⟨rfl, rfl⟩

/-- An ARMED channel 7 with a start condition. -/
def armed (q : Condition) (pause : Bool) : State :=
  engined { inRun .armed .between with start := some q, requestPause := pause }

theorem test_operand_change_hypotheses :
    (State.reset.inReset = false ∧ (State.reset.engine 7).run = .idle) ∧
    (let s := engined { inRun .armed .between with start := some ⟨.soft, false⟩, held := true };
      (s.engine 7).held = true) ∧
    (let s := engined (inRun .running (.holding (playing 0)));
      (s.engine 7).run = .running ∧ (s.playOf 7).isSome = true) ∧
    (let s := engined (inRun .running .between);
      (s.engine 7).run = .running ∧ (s.engine 7).activity = .between) ∧
    (let s := engined (inWait .running .rest none);
      (s.engine 7).run = .running ∧ (s.engine 7).held = false ∧
        (s.engine 7).activity = .waiting ⟨⟨.soft, false⟩, .rest⟩ ∧ s.operand 7 .soft = false) ∧
    (let s := (engined (inWait .running .rest none)).setLatches 7 ⟨0, 0, true⟩;
      (s.engine 7).activity = .waiting ⟨⟨.soft, false⟩, .rest⟩ ∧ s.operand 7 .soft ≠ false) ∧
    (let s := armed ⟨.soft, false⟩ false;
      (s.engine 7).run = .armed ∧ (s.engine 7).held = false ∧
        (s.engine 7).start = some ⟨.soft, false⟩ ∧ s.operand 7 .soft = false) ∧
    (let s := armed ⟨.soft, true⟩ true;
      (s.engine 7).start = some ⟨.soft, true⟩ ∧ s.operand 7 .soft ≠ true ∧
        (s.engine 7).requestPause = true) ∧
    (let s := armed ⟨.soft, true⟩ false;
      s.operand 7 .soft ≠ true ∧ (s.engine 7).requestPause = false ∧
        (s.engine 7).linePause = false) := by decide

theorem test_run_hypotheses :
    (let q : Condition := ⟨.soft, false⟩;
      Condition.ofCode (4 : Byte).toNat q.negated = some q ∧
      (∀ c ∈ maskChannels 0x81,
        (State.reset.engine c).run = .idle ∧ (511 : Half).toNat < State.reset.windowSize c) ∧
      q.operand ≠ .last ∧ ∀ c ∈ maskChannels 0x81, State.reset.operand c q.operand = q.negated) ∧
    (clocked toExternal).clock.hold = true ∧
    (Condition.ofCode (15 : Byte).toNat false = some ⟨.always, false⟩ ∧
      State.reset.open = true ∧ State.reset.clock.hold = false) ∧
    ((armed ⟨.always, false⟩ true).engine 7).requestPause = true ∧
    (let s := armed ⟨.always, false⟩ false;
      (s.engine 7).requestPause = false ∧ (s.engine 7).linePause = false) ∧
    ((15 : Byte).toNat ≤ 15 ∧ (1 : Byte).toNat ≤ 1) ∧
    ((engined (inRun .armed .between)).engine 7).run ≠ .idle ∧
    (let s := { State.reset with partition := Vector.replicate 8 0 };
      (s.engine 7).run = .idle ∧ s.windowSize 7 = 0) ∧
    (State.reset.windowSize 7 ≠ 0 ∧ State.reset.windowSize 7 ≤ (512 : Half).toNat) := by decide

/-- RUN of channels 0 and 7 on the software trigger, whose latch is set at channel 7 alone: channel 7 starts,
and its latch is consumed. -/
theorem test_run_starts_those_whose_test_is_true :
    let s := State.reset.setLatches 7 ⟨0, 0, true⟩;
    s.open = true ∧ s.clock.hold = false ∧
    Condition.ofCode (4 : Byte).toNat false = some ⟨.soft, false⟩ ∧
    (∀ c ∈ maskChannels 0x81, (s.engine c).run = .idle ∧ (0 : Half).toNat < s.windowSize c) ∧
    s.operand 0 .soft = false ∧ s.operand 7 .soft ≠ false ∧
    (takeRun 0x81 0 4 0 s).2 = [0x00, 0x80] ∧
    ((takeRun 0x81 0 4 0 s).1.engine 0).run = .armed ∧
    ((takeRun 0x81 0 4 0 s).1.latches 7).soft = false := by decide +kernel

/-- RUN of channels 0 and 7 and SET RATE of channel 7 withdraw the sample periods, and RUN the operand
changes too, that were handed to those channels before, and those alone. -/
theorem test_a_restarted_phase_withdraws_sample_periods :
    let s := { State.reset with handed :=
      [.samplePeriod 7, .samplePeriod 1, .timeBaseTap 0, .samplePeriod 0, .operandChange 7] };
    (takeRun 0x81 0 4 0 s).1.handed = [.samplePeriod 1, .timeBaseTap 0] ∧
    (takeSetRate 7 4 s).1.handed = [.samplePeriod 1, .timeBaseTap 0, .samplePeriod 0, .operandChange 7] ∧
    (takeSetRate 7 0 s).1.handed = s.handed := by decide +kernel

/-- RUN of channels 0 and 7 where both fail each test. -/
theorem test_run_refusals_of_several_channels :
    (let s := (engined (inRun .armed .between)).setEngine 0 (inRun .faulted .between);
      s.open = true ∧ (s.engine 0).run ≠ .idle ∧ (s.engine 7).run ≠ .idle ∧ 7 ∈ maskChannels 0x81 ∧
        (takeRun 0x81 0 15 1 s).2 = [0x13, 0x81]) ∧
    (let s := { State.reset with partition := #v[0, 64, 0, 0, 0, 0, 0, 0] };
      (∀ c ∈ maskChannels 0x83, (s.engine c).run = .idle) ∧ s.windowSize 0 = 0 ∧ s.windowSize 7 = 0 ∧
        (takeRun 0x83 0 15 1 s).2 = [0x14, 0x81]) ∧
    ((∀ c ∈ maskChannels 0x81, State.reset.windowSize c ≠ 0) ∧
      (takeRun 0x81 512 15 1 State.reset).2 = [0x05, 0x81]) := by decide +kernel

/-- A retired list of two images, the first with a number of references. -/
def retiring (refs : Nat) : State :=
  let i := image (.retired .good 0) .requests refs
  { State.reset with retired := [⟨4, i⟩, ⟨5, { i with ident := 1, serial := 2, refs := 1 }⟩] }

theorem test_stop_hypotheses :
    (let s := engined (inRun .armed .between);
      s.open = true ∧ (s.engine 7).run.active = true ∧ s.playOf 7 = none) ∧
    (let s := engined (inRun .running (.playing (playing 0)));
      s.open = true ∧ (s.engine 7).run.active = true ∧ s.playOf 7 = some (playing 0)) ∧
    (let s := engined (inRun .paused (.holding (playing 0)));
      (s.engine 7).run.inProgram = true ∧ (s.playOf 7).isSome = true) ∧
    ((State.reset.engine 7).run.active = false ∧ (State.reset.engine 7).stopPending = false ∧
      State.reset.playOf 7 = none) ∧
    (∀ e ∈ (retiring 2).retired, e.image.serial = 1 → 1 < e.image.refs) ∧
    (let e : RetiredEntry := ⟨4, image (.retired .good 0) .requests 1⟩;
      let after := (retiring 1).retired.tail;
      (retiring 1).retired = [] ++ e :: after ∧ e.image.serial = 1 ∧ e.image.refs = 1 ∧
        ∀ x ∈ [] ++ after, x.image.serial ≠ 1) := by decide

/-- STOP of channels 0 and 7, one ARMED and one in a PLAY step with stop-pending set: the notices come in
ascending order, and AFTER_PLAY leaves channel 7 with stop-pending set. -/
theorem test_stop_of_several_channels :
    let s := (engined { inRun .running (.playing (playing 0)) with stopPending := true }).setEngine 0
      (inRun .armed .between);
    s.open = true ∧ (0x81 : Byte) ≠ 0 ∧ (1 : Byte).toNat ≤ 1 ∧
    (∀ c : Chan, (s.playOf c).isSome = true → (s.engine c).run.inProgram = true) ∧
    (∀ c : Chan, (s.engine c).stopPending = true → (s.playOf c).isSome = true) ∧
    (takeStop 0x81 0 s).2 = [0x00, 0x81, 0x00] ∧
    (takeStop 0x81 0 s).1.link.notices.map QueuedNotice.notice =
      [.runEnd 0 .stopped 0 none, .runEnd 7 .stopped 0 none] ∧
    (takeStop 0x81 1 s).2 = [0x00, 0x01, 0x80] := by decide +kernel

theorem test_pause_and_resume_hypotheses :
    (let s := engined { inRun .paused (.playing (playing 0)) with requestPause := true };
      s.open = true ∧ (∀ c : Chan, (s.engine c).run = .paused →
        (s.engine c).requestPause = true ∨ (s.engine c).linePause = true)) ∧
    (let s := engined { inRun .paused (.playing (playing 0)) with requestPause := true };
      (∀ c : Chan, (0xFF : Byte).getLsbD c.val = true → (s.engine c).linePause = false →
        ((s.engine c).run = .paused → (s.playOf c).isSome = true)) ∧
      (∀ c : Chan, (s.engine c).run = .running → (s.engine c).linePause = false)) := by decide

/-- RESUME at a channel 7: PAUSED with no LINE reason, held and not held, in each activity; and where it goes
on nowhere. -/
theorem test_resume_at_a_channel_hypotheses :
    (let s := engined { inRun .paused .between with requestPause := true, held := true };
      s.open = true ∧ (s.engine 7).run = .paused ∧ (s.engine 7).linePause = false ∧
        (s.engine 7).held = true) ∧
    (let s := engined { inRun .paused (.waiting ⟨⟨.soft, true⟩, .rest⟩) with requestPause := true };
      (s.engine 7).run = .paused ∧ (s.engine 7).linePause = false ∧ (s.engine 7).held = false) ∧
    (let s := engined { inRun .paused .between with requestPause := true, linePause := true };
      (s.engine 7).linePause = true) ∧
    (let s := engined (inRun .running .between);
      (s.engine 7).run ≠ .paused ∧ (s.engine 7).linePause = false) := by decide

theorem test_channel_request_hypotheses :
    (let f : FaultRecord := ⟨.badTarget, 4, none, 1, 0⟩;
      let s := engined { inRun .faulted .between with fault := some f };
      s.open = true ∧ (s.engine 7).run = .faulted ∧ (s.engine 7).fault = some f) ∧
    (State.reset.engine 7).run ≠ .faulted ∧
    (DamagePolicy.ofCode 2 = some .fault ∧ boolOfCode 1 = some true ∧ boolOfCode 0 = some false) := by
  decide

/-- SET POLICY at a channel 7 that comes to be PAUSED, at one that goes on, held and not held, and at one that
does neither. -/
theorem test_set_policy_hypotheses :
    (let s := { engined (inRun .running .between) with pauseLine := true };
      (s.engine 7).run = .running ∧ (s.pauseLine && true) = true) ∧
    (let e := { inRun .paused .between with linePause := true, pauseRouting := true, held := true };
      let s := { engined e with pauseLine := true };
      (s.engine 7).run = .paused ∧ (s.engine 7).requestPause = false ∧ (s.pauseLine && false) = false ∧
        (s.engine 7).held = true) ∧
    (let e := { inRun .paused (.playing (playing 0)) with linePause := true, pauseRouting := true };
      let s := { engined e with pauseLine := true };
      (s.engine 7).run = .paused ∧ (s.engine 7).held = false) ∧
    (State.reset.engine 7).run = .idle := by decide

/-- Channel 0 at a CALL of a target, with a number of return records. -/
def calling (target : BitVec 12) (depth : Nat) : State :=
  { State.reset.setEngine 0
      { inRun .running .between with returns := List.replicate depth ⟨1, 0⟩ } with
    steps := [(0, .call target)] }

/-- Channel 0, RUNNING at index 0, where a step stands. -/
def atStep (x : Step) (e : Engine) : State :=
  { State.reset.setEngine 0 { e with run := .running } with steps := [(0, x)] }

/-- A PLAY of handle 1023, and a handle whose current image has an integrity. -/
def playStepOf (current : Option Image) (policy : DamagePolicy) : State :=
  { atStep (.play 1023 1 .keep .set .clear .keep none none) { Engine.reset with policy := policy } with
    handles := [(1023, ⟨current, none⟩)] }

theorem test_play_step_hypotheses :
    (let s := playStepOf none .fault;
      s.localStep 0 (s.engine 0).index = .play 1023 1 .keep .set .clear .keep none none ∧
        (s.handle (1023 : BitVec 10).toNat).current = none) ∧
    (let i := image (.ready (.damaged 1 1) 0) .requests 0;
      ((playStepOf (some i) .skip).handle (1023 : BitVec 10).toNat).current = some i ∧
        i.phase = .ready (.damaged 1 1) 0 ∧
        ((playStepOf (some i) .skip).engine 0).policy = .skip ∧
        ((playStepOf (some i) .fault).engine 0).policy = .fault ∧
        ((playStepOf (some i) .playAnyway).engine 0).policy = .playAnyway) ∧
    (image (.ready .good 0) .requests 7).phase = .ready .good 0 := by decide

/-- A number of loop records, each on a step of its own. -/
def loopsOf (n : Nat) : List LoopRecord := List.replicate n ⟨0, 9, .count 2⟩

theorem test_loop_and_branch_hypotheses :
    (let s := atStep (.loop 0 (.count 2)) Engine.reset;
      s.localStep 0 (s.engine 0).index = .loop 0 (.count 2) ∧
        (0 : BitVec 12).toNat ≤ (s.engine 0).index) ∧
    (let s := atStep (.loop 512 (.count 2)) Engine.reset;
      s.windowSize 0 ≤ (512 : BitVec 12).toNat ∧ s.localStep 0 511 = .stop) ∧
    (let s := { atStep (.loop 511 (.count 2)) { Engine.reset with loops := loopsOf 5 } with
        steps := [(0, .loop 511 (.count 2)), (511, .timer 1 0)] };
      (s.engine 0).index < (511 : BitVec 12).toNat ∧ (511 : BitVec 12).toNat < s.windowSize 0 ∧
        s.localStep 0 511 = .timer 1 0 ∧ (s.engine 0).loops.length < 6) ∧
    6 ≤ (loopsOf 6).length ∧
    (let s := atStep (.branch ⟨.last, true⟩ 511 true) Engine.reset;
      s.localStep 0 (s.engine 0).index = .branch ⟨.last, true⟩ 511 true ∧
        (511 : BitVec 12).toNat < s.windowSize 0 ∧ s.operand 0 .last ≠ true) ∧
    (let s := atStep (.branch ⟨.soft, false⟩ 511 false) Engine.reset;
      s.operand 0 .soft = (⟨.soft, false⟩ : Condition).negated) ∧
    State.reset.windowSize 0 ≤ (512 : BitVec 12).toNat := by decide

theorem test_barred_step_hypotheses :
    ¬((Step.timer 1 0 = .stop) ∨ Step.timer 1 0 = .ret ∨ (∃ t, Step.timer 1 0 = .call t) ∨
      (∃ q t l, Step.timer 1 0 = .branch q t l) ∨ ∃ n t, Step.timer 1 0 = .loop n t) := by
  simp

theorem test_call_and_return_hypotheses :
    (let s := calling 512 0;
      s.localStep 0 (s.engine 0).index = .call 512 ∧ s.windowSize 0 ≤ (512 : BitVec 12).toNat) ∧
    (let s := calling 511 4;
      (511 : BitVec 12).toNat < s.windowSize 0 ∧ 4 ≤ (s.engine 0).returns.length) ∧
    (let s := calling 511 3;
      s.localStep 0 (s.engine 0).index = .call 511 ∧ (511 : BitVec 12).toNat < s.windowSize 0 ∧
        (s.engine 0).returns.length < 4) ∧
    (let s := atStep .ret Engine.reset;
      s.localStep 0 (s.engine 0).index = .ret ∧ (s.engine 0).returns = []) ∧
    (let s := atStep .ret { Engine.reset with returns := [⟨512, 0⟩] };
      (s.engine 0).returns = ⟨512, 0⟩ :: [] ∧ s.windowSize 0 ≤ 512) ∧
    (let s := atStep .ret { Engine.reset with returns := [⟨511, 2⟩], loops := loopsOf 3 };
      (s.engine 0).returns = ⟨511, 2⟩ :: [] ∧ 511 < s.windowSize 0) := by decide

theorem test_other_step_hypotheses :
    (let s := atStep (.wait ⟨.soft, false⟩ .rest) Engine.reset;
      s.localStep 0 (s.engine 0).index = .wait ⟨.soft, false⟩ .rest ∧ s.operand 0 .soft = false) ∧
    (let s := atStep (.wait ⟨.always, false⟩ .rest) Engine.reset;
      s.operand 0 .always ≠ (⟨.always, false⟩ : Condition).negated) ∧
    (let s := atStep (.timer 65535 7) Engine.reset;
      s.localStep 0 (s.engine 0).index = .timer 65535 7 ∧ (s.executeStep 0).2 = true) ∧
    (let s := atStep (.signal none true 255) Engine.reset;
      s.localStep 0 (s.engine 0).index = .signal none true 255) ∧
    (let s := atStep (.signal (some (7, .toggle)) false 0) Engine.reset;
      s.localStep 0 (s.engine 0).index = .signal (some (7, .toggle)) false 0) ∧
    (let s := atStep .stop Engine.reset;
      s.localStep 0 (s.engine 0).index = .stop ∧ s.playOf 0 = none ∧
        (s.executeStep 0).2 = false) := by decide

theorem test_advance_hypotheses :
    ((State.reset.engine 0).loops = [] ∧ (State.reset.advance 0).2 = true) ∧
    (let s := State.reset.setEngine 0 { Engine.reset with index := 511 };
      (s.advance 0).2 = false) ∧
    (let s := State.reset.setEngine 0 { Engine.reset with index := 9, loops := loopsOf 2 };
      (s.engine 0).loops = ⟨0, 9, .count 2⟩ :: loopsOf 1 ∧ (s.engine 0).index = 9 ∧ 1 < 2) ∧
    (let s := State.reset.setEngine 0 { Engine.reset with index := 8, loops := loopsOf 1 };
      (s.engine 0).loops = ⟨0, 9, .count 2⟩ :: [] ∧ 9 ≠ (s.engine 0).index) ∧
    (let r : LoopRecord := ⟨1, 9, .condition ⟨.flag 7, true⟩⟩;
      let s := State.reset.setEngine 0 { Engine.reset with index := 9, loops := [r] };
      (s.engine 0).loops = r :: [] ∧ r.last = (s.engine 0).index ∧
        s.operand 0 (.flag 7) ≠ (⟨.flag 7, true⟩ : Condition).negated) ∧
    (State.reset.operand 0 .timer = (⟨.timer, false⟩ : Condition).negated) := by decide

theorem test_fault_and_stop_hypotheses :
    (calling 0 0).playOf 0 = none ∧
    (let s := (armed ⟨.soft, false⟩ false).setLatches 7 ⟨0, 0, true⟩;
      s.inReset = false ∧ (s.engine 7).run = .armed ∧ (s.engine 7).held = false ∧
        (s.engine 7).start = some ⟨.soft, false⟩ ∧ (s.latches 7).soft = true ∧
        (s.engine 7).requestPause = false ∧ (s.engine 7).linePause = false ∧
        s.localStep 7 (s.engine 7).index = .stop) := by decide

theorem test_define_image_hypotheses :
    1023 < (1024 : Half).toNat ∧ boolOfCode 2 = none ∧ 8388608 < (8388609 : Quad).toNat ∧
    ((1023 : Half).toNat ≤ 1023 ∧ boolOfCode 1 = some true ∧ 1 ≤ (1 : Quad).toNat ∧
      (8388608 : Quad).toNat ≤ 8388608) ∧
    ((holding none (some (image (.loading false []) .requests 0))).handle 1023).incoming.isSome = true ∧
    (let s := { State.reset with free := [] };
      (s.handle 1023).incoming = none ∧
        allocate (s.guards.ranges .fence) (((1 : Quad).toNat + 255) / 256) s.free = none) ∧
    (allocate (State.reset.guards.ranges .fence) (((8388608 : Quad).toNat + 255) / 256)
        State.reset.free = some (0, []) ∧
      1 ≤ State.reset.serialCounter ∧ State.reset.serialCounter ≤ 65535 ∧
      State.reset.liveImages.length < 65535) := by decide

theorem test_extent_hypotheses :
    separated 0 [⟨50, 150⟩, ⟨318, 32450⟩] = true ∧
    (∀ r ∈ fence, r.first ≤ r.last) ∧
    (0 + 50 ≤ 32768 ∧ ∀ page, page < 50 →
      ∀ e ∈ ([⟨50, 150⟩, ⟨318, 32450⟩] : List Extent), e.holds page = false) := by decide

theorem test_write_page_hypotheses :
    (List.replicate 256 (0 : Half)).length = 256 ∧
    (State.reset.handle 1023).incoming = none ∧
    (let i := image (.ready .good 0) .requests 0;
      ((holding none (some i)).handle 1023).incoming = some i ∧ i.phase = .ready .good 0) ∧
    (image (.loading false []) .imported 0).source = .imported ∧
    (let i := image (.loading false [0]) .requests 0;
      ((holding none (some i)).handle 1023).incoming = some i ∧ i.phase = .loading false [0] ∧
        i.source = .requests ∧ i.pageCount ≤ (2 : Half).toNat ∧ (1 : Half).toNat < i.pageCount) := by
  decide +kernel

/-- A half and the next one differ. -/
theorem next_half_differs (w : Half) : w ≠ w + 1 := by
  intro h
  have := congrArg BitVec.toNat h
  simp at this
  omega

theorem test_page_decay_hypotheses :
    (linked { Link.reset with standby := true }).link.standby = true ∧
    State.reset.link.standby = false ∧
    (List.replicate 512 (0 : Byte)).length = 512 ∧
    (let c := crc (List.replicate 512 0);
      crc (List.replicate 512 0) ≠
        ({ State.reset with checkWords := [(32767, c + 1)] } : State).checkWord
          (32767 : BitVec 15).toNat) :=
  ⟨rfl, rfl, List.length_replicate, next_half_differs _⟩

theorem test_finish_image_hypotheses :
    ((holding none none).open = true ∧ ((holding none none).handle 1023).incoming = none) ∧
    (let i := image (.ready .good 0) .requests 0;
      ((holding none (some i)).handle 1023).incoming = some i ∧ i.phase = .ready .good 0) ∧
    (image (.loading false []) .imported 0).source = .imported ∧
    (let i := image (.loading true [0]) .requests 0;
      ((holding none (some i)).handle 1023).incoming = some i ∧ (holding none (some i)).open = true ∧
        i.phase = .loading true [0] ∧ i.source = .requests ∧ [0].Pairwise (· < ·) ∧
        1 < i.pageCount ∧ 1 ∉ [0] ∧ ∀ j, j < 1 → j ∈ [0]) ∧
    (let i := image (.loading true [0, 1]) .requests 0;
      [0, 1].Pairwise (· < ·) ∧ ∀ k, k < i.pageCount → k ∈ [0, 1]) := by decide

/-- A commit attempt that is taken, and one that is refused. -/
theorem test_commit_attempt_hypotheses :
    (let i := image (.ready .good 0) .requests 0;
      (holding none (some i)).commitAttempt 1023 i =
        .ok (none, (holding none (some i)).setHandle 1023 ⟨some i, none⟩)) ∧
    (let i := image (.ready .good 0) .requests 0;
      let s := { holding (some i) (some i) with guards :=
        { GuardTable.reset with slots := GuardTable.reset.slots.set 0 (some ⟨1, 1, .keep⟩) } };
      s.commitAttempt 1023 i = .error .guarded) := by
  constructor <;> rfl

theorem test_commit_hypotheses :
    (State.reset.handle 1023).incoming = none ∧
    (let i := image (.loading false []) .requests 0;
      ((holding none (some i)).handle 1023).incoming = some i ∧ i.phase = .loading false []) ∧
    (let i := image (.ready .good 0) .requests 0;
      ((holding none (some i)).handle 1023).incoming = some i ∧ i.phase = .ready .good 0 ∧
        ((holding none (some i)).handle 1023).current = none) ∧
    (let old := image (.ready .good 0) .requests 1;
      let s := holding (some old) (some old);
      (s.handle 1023).current = some old ∧ 0 < old.refs ∧ s.retired.length < 16) ∧
    (let old := image (.ready .good 0) .requests 1;
      let s := { holding (some old) (some old) with retired := List.replicate 16 ⟨0, old⟩ };
      0 < old.refs ∧ 16 ≤ s.retired.length) ∧
    (image (.ready .good 0) .requests 0).refs = 0 := by decide

/-- Pages 0 and 1 of `image`, without a KEEP range, and with one in the last slot that has its second
page. -/
theorem test_kept_image_hypotheses :
    (¬∃ (k : Fin 8) (r : GuardRange), State.reset.guards.slots[k] = some r ∧ r.mode = .keep ∧
      r.first < 0 + 2 ∧ 0 ≤ r.last) ∧
    (let g := { GuardTable.reset with slots := GuardTable.reset.slots.set 7 (some ⟨1, 32767, .keep⟩) };
      ∃ (k : Fin 8) (r : GuardRange), g.slots[k] = some r ∧ r.mode = .keep ∧ r.first < 0 + 2 ∧
        0 ≤ r.last) := by
  refine ⟨fun h => absurd ((GuardTable.keeps_iff State.reset.guards 0 2).mpr h) (by decide), ?_⟩
  exact ⟨7, ⟨1, 32767, .keep⟩, by decide, rfl, by decide, by decide⟩

theorem test_drop_and_release_hypotheses :
    (State.reset.handle 1023).incoming = none ∧ State.reset.handle 1023 = ⟨none, none⟩ ∧
    (let i := image (.loading false []) .requests 0;
      (holding none (some i)).handle 1023 = ⟨none, some i⟩ ∧
        (holding none (some i)).importer.record = none) ∧
    (let i := image (.loading false [0]) .imported 0;
      ((importing 1).handle 1023).incoming = some i ∧
        (importing 1).importer.record = some ⟨1023, 1, 0, 300, 2, 1, false⟩) ∧
    (let old := image (.ready .good 0) .requests 0;
      (holding (some old) none).handle 1023 = ⟨some old, none⟩ ∧ old.refs = 0) ∧
    (let old := image (.ready .good 0) .requests 8;
      (holding (some old) none).handle 1023 = ⟨some old, none⟩ ∧ old.phase = .ready .good 0 ∧
        0 < old.refs ∧ (holding (some old) none).retired.length < 16) := by decide

/-- A handle with both images, the incoming one filled by an import in flight, or not. -/
theorem test_release_of_both_hypotheses :
    (let old := image (.ready .good 0) .requests 8;
      let i := image (.loading false []) .requests 0;
      let s := holding (some old) (some i);
      (s.handle 1023).incoming = some i ∧ (s.handle 1023).current = some old ∧
        Sparse.rising s.handles = true ∧ s.importer.record = none) ∧
    (let old := image (.ready .good 0) .requests 0;
      let i := image (.loading false [0]) .imported 0;
      let s := { importing 1 with handles := [(1023, ⟨some old, some i⟩)] };
      (s.handle 1023).incoming = some i ∧ (s.handle 1023).current = some old ∧
        Sparse.rising s.handles = true ∧
        s.importer.record = some ⟨1023, 1, 0, 300, 2, 1, false⟩) := by decide

theorem test_read_hypotheses :
    (1023 : Half).toNat ≤ 1023 ∧
    ((1 : Half).toNat ≤ State.reset.free.length ∧ State.reset.free.length < (2 : Half).toNat) ∧
    (128 < (129 : Byte).toNat ∧ 1 ≤ (1 : Byte).toNat ∧ (128 : Byte).toNat ≤ 128) ∧
    (State.reset.windowSize 7 < (385 : Half).toNat + (128 : Byte).toNat ∧
      (384 : Half).toNat + (128 : Byte).toNat ≤ State.reset.windowSize 7) ∧
    ([0, 1, 3].Pairwise (· < ·) ∧ 2 ∉ [0, 1, 3] ∧ (∀ j, j < 2 → j ∈ [0, 1, 3]) ∧
      lowestMissing 0 [0, 1, 3] = 2) := by decide

theorem test_guard_request_hypotheses :
    ¬((1 : Half).toNat ≤ (0 : Half).toNat) ∧ ¬((32768 : Half).toNat ≤ 32767) ∧
    ((32767 : Half).toNat ≤ (32767 : Half).toNat ∧ GuardMode.ofCode 1 = some .keep ∧
      GuardMode.ofCode 2 = none) ∧
    ((guarding .line false).open = true ∧
      ¬((guarding .line false).guards.level = .unlocked ∨
        ((guarding .line false).guards.level = .line ∧ (guarding .line false).guards.line = true))) ∧
    ((guarding .line true).guards.level = .line ∧ (guarding .line true).guards.line = true) ∧
    2 < (3 : Byte).toNat ∧
    (LockLevel.ofCode 0 = some .unlocked ∧ LockLevel.ofCode 2 = some .frozen) ∧
    ((guarding .frozen true).guards.level ≠ .line ∧ (guarding .frozen true).guards.level = .frozen) := by
  decide

theorem test_start_import_hypotheses :
    State.reset.straps.libEn = true ∧ State.reset.importer.closed = false ∧
    ({ State.reset with straps := ⟨0, false, false⟩ } : State).straps.libEn = false ∧
    (importing 0).importer.record.isSome = true ∧
    (State.reset.importer.record = none ∧
      ((holding none (some (image (.loading false []) .requests 0))).handle 1023).incoming.isSome =
        true) ∧
    ((16777214 : Quad).toNat % 2 = 0 ∧ ¬16777214 < (16777214 : Quad).toNat ∧
      ¬16777216 < (16777214 : Quad).toNat + 2 * (1 : Quad).toNat ∧
      16777216 < (16777214 : Quad).toNat + 2 * (2 : Quad).toNat) ∧
    (boolOfCode 0 = some false ∧ (State.reset.handle 1023).incoming = none ∧
      allocate (State.reset.guards.ranges .fence) (((257 : Quad).toNat + 255) / 256) State.reset.free =
        some (0, [⟨2, 32766⟩])) := by decide

theorem test_import_page_hypotheses :
    (let i := image (.loading false [0]) .imported 0;
      let s := importing 1;
      s.inReset = false ∧ s.importer.record = some ⟨1023, 1, 0, 300, 2, 1, false⟩ ∧
        s.importer.reading = some ⟨1, 512, 88⟩ ∧ (s.handle 1023).incoming = some i ∧
        i.phase = .loading false [0] ∧ i.pageCount = 2 ∧ i.sampleLength = 300 ∧ 1 + 1 = i.pageCount) ∧
    (let s := importing 0;
      s.importer.record = some ⟨1023, 1, 0, 300, 2, 0, false⟩ ∧ 0 + 1 < 2 ∧
        s.importer.reading = some ⟨0, 0, 88⟩) := by decide

/-- The import of `importing 1` with commit on finish; `test_commit_attempt_hypotheses` has an attempt
that is taken and one that is refused. -/
theorem test_import_commit_hypotheses :
    (let r : ImportRecord := ⟨1023, 1, 0, 300, 2, 1, true⟩;
      let s := { importing 1 with importer := ⟨some r, some ⟨1, 512, 88⟩, false, 2⟩ };
      s.importer.record = some r ∧ r.commitOnFinish = true ∧ r.nextPage + 1 = r.pageCount) := by
  decide

theorem test_cancel_import_hypotheses :
    State.reset.importer.record = none ∧ State.reset.straps.libEn = true ∧
    ((importing 1).open = true ∧
      (importing 1).importer.record = some ⟨1023, 1, 0, 300, 2, 1, false⟩ ∧
      ((importing 1).handle 1023).incoming = some (image (.loading false [0]) .imported 0)) := by
  decide

/-- A walk between blocks, over pages 0 to 4 and in blocks of 2. -/
def walk : Scanner :=
  { Scanner.reset with
    walk := .on, interval := 1, blockSize := 2, rangeEnd := 4, intervalRemaining := some 1 }

theorem test_set_walk_hypotheses :
    1 < (2 : Byte).toNat ∧ 128 < (129 : Byte).toNat ∧ 32767 < (32768 : Half).toNat ∧
    ((scanning walk).open = true ∧ (scanning walk).scanner.walk ≠ .off ∧
      (scanning walk).scanner.walk = .on ∧ (scanning walk).scanner.blockRemaining = none) ∧
    (State.reset.scanner.walk = .off ∧ State.reset.scanner.blockRemaining = none) ∧
    (scanning { walk with blockRemaining := some 1 }).scanner.blockRemaining.isSome = true := by decide

/-- A T3 event that was handed on, at a walk at its last count. -/
def walkDue (current : Option Image) (x : Scanner) : State :=
  { holding current none with scanner := x, handed := [.timeBaseTap 3] }

/-- The block passes over page 4, comes round the range, and finds page 0 to be read. -/
theorem test_block_hypotheses :
    (let i := image (.ready .good 0) .requests 0;
      let s := walkDue (some i) { walk with cursor := 4 };
      s.inReset = false ∧ s.scanner.walk = .on ∧ s.scanner.suspended = false ∧
        s.scanner.blockRemaining = none ∧ s.scanner.intervalRemaining = some 1 ∧
        s.clock.hold = false ∧ .timeBaseTap 3 ∈ s.handed ∧
        (∀ c : Chan, (s.timer c).running = true → (s.timer c).tap ≠ 3) ∧
        1 < s.scanner.blockSize ∧
        (∀ j, j < 1 → s.toRead (s.scanner.after j).cursor = none) ∧
        (s.scanner.after 1).cursor = 0 ∧ s.toRead (s.scanner.after 1).cursor = some i) ∧
    (let s := walkDue none { walk with cursor := 4 };
      ∀ j, j < s.scanner.blockSize → s.toRead (s.scanner.after j).cursor = none) ∧
    (clocked toExternal).clock.hold = true ∧
    State.reset.scanner.walk ≠ .on ∧
    (let s := scanning { walk with suspended := true };
      s.scanner.suspended = true) ∧
    (let s := scanning { walk with intervalRemaining := some 2 };
      ∀ n ∈ s.scanner.intervalRemaining, 1 < n) := by decide

theorem test_the_due_scanner_is_in_range : ({ walk with cursor := 4 } : Scanner).inRange := by
  unfold Scanner.inRange; decide

/-- R188: in a hold the interval stands still. -/
theorem test_the_interval_stands_still :
    (let s := { scanning walk with clock := toExternal };
      exec .walkIntervalExpiry s = .next s.transmit) := rfl

/-- The images of handle 1023, at a read of page 1 with zero bytes and a check word, by a block in a walk
state with pages left. -/
def readingOf (r : HandleRecord) (word : Half) (state : WalkState) (left : Nat) : State :=
  { holding r.current r.incoming with
    imagesMade := 1
    memory := Memory.write [] 512 (List.replicate 512 0)
    checkWords := [(1, word)]
    scanner := { walk with
      walk := state, cursor := 1, intervalRemaining := none, blockRemaining := some left
      pageInRead := some ⟨1, 0, 0⟩, begun := 1 } }

/-- The image of `image` at the read of the last page of a block in ON. -/
def reading (integrity : Integrity) (word : Half) : State :=
  readingOf ⟨some (image (.ready integrity 0) .requests 0), none⟩ word .on 1

theorem test_read_complete_hypotheses :
    ((reading .good 0).inReset = false ∧
      (reading .good 0).scanner.pageInRead = some ⟨1, 0, 0⟩ ∧
      (reading .good 0).scanner.blockRemaining = some 1 ∧ (reading .good 0).scanner.walk = .on) ∧
    ((reading .good 0).toRead 1 = some (image (.ready .good 0) .requests 0) ∧
      (image (.ready .good 0) .requests 0).ident = 0 ∧
      (image (.ready .good 0) .requests 0).damaged = false ∧
      (reading .good 0).rolesOf 0 = (1023, .current) :: []) ∧
    ((reading (.damaged 0 32768) 0).toRead 1 = some (image (.ready (.damaged 0 32768) 0) .requests 0) ∧
      (image (.ready (.damaged 0 32768) 0) .requests 0).damaged = true) ∧
    (scanning { walk with pageInRead := some ⟨1, 0, 0⟩ }).toRead 1 = none := by decide

/-- The bytes of page 1 in `reading`, and check words that agree with them and that do not. -/
theorem test_compared_pages :
    let c := crc (List.replicate 512 0);
    crc ((reading .good c).pageBytes 1) = (reading .good c).checkWord 1 ∧
      crc ((reading .good (c + 1)).pageBytes 1) ≠ (reading .good (c + 1)).checkWord 1 := by
  have h : ∀ w, (reading .good w).pageBytes 1 = List.replicate 512 0 := fun w =>
    State.pageBytes_storePage State.reset 1 List.length_replicate
  have e : ∀ w, (reading .good w).checkWord 1 = w := fun w => rfl
  simp only [h, e]
  exact ⟨trivial, next_half_differs _⟩

/-- Pages 2, 3 and 4 are passed over, and page 0, round the range, is to be read; with 4 pages left the block
ends, in ON and in STOPPING. -/
theorem test_block_goes_on_hypotheses :
    let i := image (.ready .good 0) .requests 0;
    (let s := readingOf ⟨some i, none⟩ 0 .on 5;
      s.inReset = false ∧ s.scanner.pageInRead = some ⟨1, 0, 0⟩ ∧ s.scanner.blockRemaining = some 5 ∧
        3 + 1 < 5 ∧ (∀ j, j < 3 → s.toRead (s.scanner.after (j + 1)).cursor = none) ∧
        (s.scanner.after (3 + 1)).cursor = 0 ∧ s.toRead (s.scanner.after (3 + 1)).cursor = some i) ∧
    (let s := readingOf ⟨some i, none⟩ 0 .stopping 4;
      s.scanner.walk = .stopping ∧
        ∀ j, j + 1 < 4 → s.toRead (s.scanner.after (j + 1)).cursor = none) ∧
    (readingOf ⟨some i, none⟩ 0 .on 4).scanner.walk = .on := by
  have passed : ∀ j, j < 3 →
      (readingOf ⟨some (image (.ready .good 0) .requests 0), none⟩ 0 .stopping 4).toRead
        ((readingOf ⟨some (image (.ready .good 0) .requests 0), none⟩ 0 .stopping 4).scanner.after
          (j + 1)).cursor = none := by decide
  exact ⟨by decide, ⟨rfl, fun j hj => passed j (by omega)⟩, rfl⟩

theorem test_reading_scanners_are_in_range :
    (readingOf HandleRecord.empty 0 .on 5).scanner.inRange ∧
      (readingOf HandleRecord.empty 0 .stopping 1).scanner.inRange := by
  constructor <;> (unfold Scanner.inRange; decide)

theorem test_store_request_hypotheses :
    ([8, 8, 8, 8, 8, 8, 8, 8] : List Byte).length = 8 ∧
    ((65 : Byte) ∈ ([65, 0, 0, 0, 0, 0, 0, 0] : List Byte) ∧ 64 < (65 : Byte).toNat) ∧
    64 < (([9, 8, 8, 8, 8, 8, 8, 8] : List Byte).map BitVec.toNat).sum ∧
    ((∀ k ∈ ([64, 0, 0, 0, 0, 0, 0, 0] : List Byte), k.toNat ≤ 64) ∧
      (([64, 0, 0, 0, 0, 0, 0, 0] : List Byte).map BitVec.toNat).sum ≤ 64) ∧
    ((engined (inRun .armed .between)).engine 7).run.active = true ∧
    (∀ c : Chan, (State.reset.engine c).run.active = false) ∧
    (State.reset.windowSize 7 < (512 : Half).toNat + (1 : Byte).toNat ∧
      (511 : Half).toNat + (1 : Byte).toNat ≤ State.reset.windowSize 7) ∧
    Sparse.rising State.reset.steps = true := by decide

/-- R75: a record that fails each check, at the least value that does, and records that fail two: the reason
is that of the first. -/
theorem test_record_reasons :
    checkRecord 0x09 = .error .kind ∧ checkRecord 0x1F = .error .kind ∧
    checkRecord 0x10 = .error .reserved ∧ checkRecord 0x8000000000000008 = .error .reserved ∧
    checkRecord 0x01 = .error .count ∧ checkRecord 0x0301 = .error .count ∧
    checkRecord 0x07 = .error .preset ∧ checkRecord 0x0807 = .error .preset ∧
    checkRecord 0x0000000100000807 = .error .tap ∧
    checkRecord 0x0818 = .error .flag ∧ checkRecord 0x00030818 = .error .flag ∧
    checkRecord 0x0000000100000301 = .error .action ∧ checkRecord 0x00030018 = .error .action ∧
    checkRecord 0x0000000140000321 = .error .action ∧
    checkRecord 0x0000000140000021 = .error .condition ∧ checkRecord 0x1012 = .error .condition ∧
    checkRecord 0x1003 = .error .condition ∧ checkRecord 0x1006 = .error .condition :=
  ⟨rfl, rfl, rfl, rfl, rfl, rfl, rfl, rfl, rfl, rfl, rfl, rfl, rfl, rfl, rfl, rfl, rfl, rfl⟩

/-- A record that fails TAP and no check before it, as the statement of R75 says them. -/
theorem test_failing_check_hypotheses :
    let r : BitVec 64 := 0x0000000100000807;
    (r.extractLsb' 0 4).toNat = 7 ∧ 7 < (r.extractLsb' 8 8).toNat ∧ r.extractLsb' 32 16 ≠ 0 ∧
      ∀ k : Fin 64, r.getLsbD k.val = true →
        k.val ≤ 3 ∨ (8 ≤ k.val ∧ k.val ≤ 15) ∨ (32 ≤ k.val ∧ k.val ≤ 47) := by decide

theorem test_checked_record_hypotheses :
    checkRecord 0x0F = .error .kind ∧ checkRecord 0x05 = .ok .ret := ⟨rfl, rfl⟩

theorem test_step_record_hypotheses :
    (Step.timer 1 7).Wf ∧ (Step.play 1023 1 .keep .set .clear .keep (some 0x8000) none).Wf ∧
    checkRecord 0x0000FFFF00000707 = .ok (.timer 0xFFFF 7) := by
  refine ⟨?_, ?_, rfl⟩ <;> (show (1#16 : Half) ≠ 0; decide)

theorem test_condition_request_hypotheses :
    ((1 : Byte) &&& 1) ||| (1 &&& 0) ||| (1 &&& 0) ≠ 0 ∧
    ((1 : Byte) &&& 2) ||| (1 &&& 4) ||| (2 &&& 4) = 0 ∧
    ((15 : Byte).toNat < 16 ∧ 16 ≤ (16 : Byte).toNat) ∧
    (([0, 1, 0, 2] : List Byte).length = 4 ∧ 1 < (2 : Byte).toNat ∧
      ∃ k ∈ ([0, 1, 0, 2] : List Byte), 1 < k.toNat) := by decide

theorem test_output_request_hypotheses :
    (let g := settings 0x4000 0;
      boolOfCode 1 = some g.enable ∧ boolOfCode 0 = some g.invertA ∧
        g.clampLow.toInt ≤ g.rest.toInt ∧ g.rest.toInt ≤ g.clampHigh.toInt) ∧
    (let g : OutputSettings := { settings 0x4000 0 with clampLow := 1 };
      g.rest.toInt < g.clampLow.toInt) ∧
    boolOfCode 2 = none := by decide

/-! ### A state that meets every invariant -/

/-- Three live images: the current image of handle 1023, which channel 7 plays, a retired image, which
channel 0 plays, and the incoming image of handle 5, which an import fills. -/
def liveCurrent : Image := image (.ready .good 0) .requests 1

def liveRetired : Image :=
  { image (.retired .good 0) .requests 1 with ident := 1, serial := 2, firstPage := 2 }

def liveIncoming : Image :=
  { image (.loading false [0]) .imported 0 with ident := 2, serial := 3, firstPage := 4 }

/-- A RUNNING channel in a PLAY step. -/
def playingChannel (p : PlayRecord) : Channel :=
  { Channel.reset with engine := inRun .running (.playing p) }

/-- The part with those images, while its RESET ENGINE reply is sent; a `FRAME_SENT` waits. -/
def played : State :=
  { State.reset with
    handles := [(5, ⟨none, some liveIncoming⟩), (1023, ⟨some liveCurrent, none⟩)]
    retired := [⟨4, liveRetired⟩]
    serialCounter := 4
    imagesMade := 3
    free := [⟨6, 32762⟩]
    importer := ⟨some ⟨5, 3, 0, 300, 2, 1, false⟩, some ⟨1, 512, 88⟩, false, 2⟩
    link := { Link.reset with
      sending := some .reply, slot := some ⟨0x83, 0, [0]⟩, awaiting := some .engineReset }
    channels := (State.reset.channels.set 7 (playingChannel (playing 0))).set 0
      (playingChannel { playing 0 with serial := 2, firstPage := 2 })
    pending := [.frameSent] }

theorem test_an_invariant_state_steps : ∃ t, step played = .next t := ⟨_, rfl⟩

theorem test_invariant_state_awaits_the_engine_reset :
    played.inReset = false ∧ played.link.sending = some .reply ∧
      played.link.awaiting = some .engineReset := by decide

/-- R35, R45, R184: at the engine reset the references go, the retired image is freed, and the import ends
with its image discarded. -/
theorem test_engine_reset_releases_references :
    let t := played.completeSending;
    t.handles = [(1023, ⟨some { liveCurrent with refs := 0 }, none⟩)] ∧ t.retired = [] ∧
      t.free = [⟨2, 32766⟩] ∧ t.importer = ⟨none, none, false, 2⟩ ∧ t.link.notices = [] := by decide

theorem mem_played_handles {e : Nat × HandleRecord} (h : e ∈ played.handles) :
    e = (5, ⟨none, some liveIncoming⟩) ∨ e = (1023, ⟨some liveCurrent, none⟩) := by
  have h : e ∈ [((5 : Nat), HandleRecord.mk none (some liveIncoming)),
    (1023, ⟨some liveCurrent, none⟩)] := h
  simpa using h

theorem mem_played_retired {e : RetiredEntry} (h : e ∈ played.retired) : e = ⟨4, liveRetired⟩ := by
  have h : e ∈ [RetiredEntry.mk 4 liveRetired] := h
  simpa using h

theorem mem_played_images {i : Image} (h : i ∈ played.liveImages) :
    i = liveIncoming ∨ i = liveCurrent ∨ i = liveRetired := by
  have h : i ∈ [liveIncoming, liveCurrent, liveRetired] := h
  simpa using h

theorem test_page_invariant_hypotheses : played.PagesWf where
  free := by decide
  owned := by
    intro page h
    have h : page < 32768 := h
    have e : played.owners page =
        ([(⟨6, 32762⟩ : Extent)].filter fun e => e.holds page).length +
          ([liveIncoming, liveCurrent, liveRetired].filter fun i => i.holdsPage page).length := rfl
    rw [e]
    simp only [List.filter_cons, List.filter_nil, Extent.holds, Image.holdsPage, liveIncoming,
      liveCurrent, liveRetired, image, Bool.and_eq_true, decide_eq_true_eq]
    repeat' split
    all_goals simp only [List.length_cons, List.length_nil]
    all_goals omega
  extents := by
    intro i hi
    rcases mem_played_images hi with rfl | rfl | rfl <;> exact ⟨by decide, by decide, by decide⟩
  handles := by
    refine ⟨by decide, by decide, ?_, ?_⟩ <;> intro e he i hi <;>
      rcases mem_played_handles he with rfl | rfl <;> cases hi
    · exact ⟨.good, 0, rfl⟩
    · exact Or.inl ⟨false, [0], rfl, by decide, by decide⟩
  retired := ⟨by decide, fun e he => ⟨.good, 0, by rw [mem_played_retired he]; rfl⟩⟩
  importer := by
    refine ⟨rfl, fun r hr => ?_, ?_⟩
    · cases hr
      exact ⟨liveIncoming, false, by decide, rfl, rfl, rfl, rfl, rfl, by decide⟩
    · intro e he i hi _ _
      rcases mem_played_handles he with rfl | rfl <;> cases hi
      exact ⟨_, rfl, rfl⟩
  memory := rfl
  checkWords := ⟨rfl, fun _ he => absurd he (by simp [played, State.reset])⟩

theorem test_store_and_clock_invariant_hypotheses :
    played.StoreWf ∧ played.ClockWf ∧ played.link.Wf ∧ played.ScannerWf := by
  refine ⟨⟨by decide, by decide, rfl, ?_, ?_⟩, ?_, ?_, ?_⟩
  · exact fun _ he => absurd he (by simp [played, State.reset])
  · exact fun _ he => absurd he (by simp [played, State.reset])
  · exact ⟨⟨by decide, rfl, rfl, rfl⟩, fun h => absurd h (by decide)⟩
  · constructor <;> decide
  · refine ⟨by decide, by decide, by decide, by decide, by decide, rfl, fun _ => rfl, ?_, rfl, ?_, ?_,
      rfl, ?_⟩ <;> simp [played, State.reset, Scanner.reset]

theorem test_channel_invariant_hypotheses : played.ChannelsWf := by
  intro c
  refine ⟨⟨?_, ?_, ?_, ?_, ?_⟩, ?_⟩
  · constructor <;> revert c <;> decide
  · constructor <;> revert c <;> decide
  · refine ⟨?_, ?_, ?_⟩ <;> revert c <;> decide
  · refine ⟨?_, ?_⟩ <;> revert c <;> decide
  · have : (played.chan c).output.pending = none := by revert c; decide
    rw [this]
    exact fun _ h => absurd h (by simp)
  · revert c; decide

theorem test_reference_invariant_hypotheses : played.ReferencesWf where
  records := by decide
  distinct := by decide
  range := by decide
  counter := by decide
  counts := by decide
  incoming := by
    intro e he i hi
    rcases mem_played_handles he with rfl | rfl <;> cases hi
    rfl
  retired := by
    intro e he
    rw [mem_played_retired he]
    decide
  plays := by
    intro c p hp
    by_cases h7 : c = 7
    · subst h7
      refine ⟨liveCurrent, by decide, ?_⟩
      rw [← Option.some.inj hp]
      decide
    · by_cases h0 : c = 0
      · subst h0
        refine ⟨liveRetired, by decide, ?_⟩
        rw [← Option.some.inj hp]
        decide
      · have : played.playOf c = none := by clear hp; revert c; decide
        rw [this] at hp
        exact absurd hp (by simp)

/-- The played state at a read of page 2, which the retired image owns: handle 4, RETIRED. -/
def playedReading : State :=
  { played with
    scanner := { walk with
      cursor := 2, intervalRemaining := none, blockRemaining := some 1
      pageInRead := some ⟨2, 1, 0⟩, begun := 1 } }

/-- The places of a DAMAGE notice: the CURRENT image of a handle, the INCOMING image of one, and the handle of
origin of a RETIRED image. -/
theorem test_damage_place_hypotheses :
    (let i := image (.ready .good 0) .requests 0;
      ((reading .good 0).handle 1023).current = some i ∧
        ((readingOf ⟨none, some i⟩ 0 .on 1).handle 1023).incoming = some i ∧
        (readingOf ⟨none, some i⟩ 0 .on 1).toRead 1 = some i) ∧
    (∃ e ∈ playedReading.retired, e.image = liveRetired ∧ e.origin = 4) ∧
    playedReading.toRead 2 = some liveRetired ∧ liveRetired.ident = 1 ∧ liveRetired.damaged = false := by
  decide

/-- The reads of `test_damage_place_hypotheses` are in states that meet the invariant of references. -/
theorem test_damage_invariant_hypotheses :
    (∀ r : HandleRecord, r = ⟨some (image (.ready .good 0) .requests 0), none⟩ ∨
      r = ⟨none, some (image (.ready .good 0) .requests 0)⟩ → (readingOf r 0 .on 1).ReferencesWf) ∧
    playedReading.ReferencesWf := by
  have h := test_reference_invariant_hypotheses
  refine ⟨fun r hr => ?_, ⟨h.records, h.distinct, h.range, h.counter, h.counts, h.incoming, h.retired,
    h.plays⟩⟩
  have none : ∀ c, (readingOf r 0 .on 1).playOf c = none := fun c => by
    show State.reset.playOf c = none
    revert c; decide
  refine ⟨?_, ?_, ?_, ?_, ?_, ?_, ?_, fun c p hp => ?_⟩
  · rcases hr with rfl | rfl <;> decide
  · rcases hr with rfl | rfl <;> decide
  · rcases hr with rfl | rfl <;> decide
  · rcases hr with rfl | rfl <;> decide
  · rcases hr with rfl | rfl <;> decide
  · intro e he i hi
    have he : e ∈ [((1023 : Nat), r)] := he
    rw [List.mem_singleton.mp he] at hi
    rcases hr with rfl | rfl <;> cases hi
    rfl
  · intro e he
    have he : e ∈ ([] : List RetiredEntry) := he
    cases he
  · rw [none c] at hp
    exact absurd hp (by simp)

end Sys2Proof.Tests
end

section
/-!
The Page Allocator (R13, R15 to R17): what an ordered free extent list says of its entries, first fit around
the FENCE ranges, and the merge of a returned extent. How many entries have a page is counted, so that the
one count serves membership here and the owners of a page later.
-/
namespace Sys2Proof.Machine

/-! ### Ordered extent lists -/

theorem Extent.holds_iff (e : Extent) (page : Nat) :
    e.holds page = true ↔ e.first ≤ page ∧ page < e.first + e.count := by
  simp [Extent.holds]

/-- How many extents of a list have a page. -/
def holders (es : List Extent) (page : Nat) : Nat := es.countP fun e => e.holds page

@[simp] theorem holders_nil (page : Nat) : holders [] page = 0 := rfl

@[simp] theorem holders_cons (e : Extent) (es : List Extent) (page : Nat) :
    holders (e :: es) page = holders es page + if e.holds page then 1 else 0 := List.countP_cons

@[simp] theorem holders_append (es fs : List Extent) (page : Nat) :
    holders (es ++ fs) page = holders es page + holders fs page := List.countP_append

theorem holders_pos {es : List Extent} {page : Nat} :
    0 < holders es page ↔ ∃ e ∈ es, e.holds page = true := List.countP_pos_iff

/-- Two adjacent runs of pages have the pages of the run that joins them. -/
theorem holds_joined {x y : Extent} (h : x.first + x.count = y.first) (page : Nat) :
    (if Extent.holds ⟨x.first, x.count + y.count⟩ page then 1 else 0) =
      (if x.holds page then 1 else 0) + if y.holds page then 1 else 0 := by
  simp only [Extent.holds_iff]
  split <;> split <;> split <;> omega

/-- R13: an ordered list, said of its entries and of its pairs. -/
theorem separated_iff (low : Nat) (es : List Extent) :
    separated low es = true ↔
      (∀ e ∈ es, low ≤ e.first ∧ 0 < e.count ∧ e.first + e.count ≤ Config.pages) ∧
        es.Pairwise fun a b => a.first + a.count + 1 ≤ b.first := by
  induction es generalizing low with
  | nil => simp [separated]
  | cons e es ih =>
    simp only [separated, Bool.and_eq_true, decide_eq_true_eq, ih, List.forall_mem_cons,
      List.pairwise_cons]
    constructor
    · rintro ⟨⟨⟨h1, h2⟩, h3⟩, h4, h5⟩
      exact ⟨⟨⟨h1, h2, h3⟩, fun f hf => ⟨by have := h4 f hf; omega, (h4 f hf).2⟩⟩,
        fun f hf => (h4 f hf).1, h5⟩
    · rintro ⟨⟨⟨h1, h2, h3⟩, h4⟩, h5, h6⟩
      exact ⟨⟨⟨h1, h2⟩, h3⟩, fun f hf => ⟨h5 f hf, (h4 f hf).2⟩, h6⟩

/-- R13: a page lies in one entry of an ordered list at most. -/
theorem holders_le_one {low : Nat} {es : List Extent} (h : separated low es = true) (page : Nat) :
    holders es page ≤ 1 := by
  induction es generalizing low with
  | nil => simp
  | cons e es ih =>
    simp only [separated, Bool.and_eq_true] at h
    rw [holders_cons]
    by_cases he : e.holds page = true
    · have none : holders es page = 0 := by
        by_contra hn
        obtain ⟨f, hf, hp⟩ := holders_pos.mp (Nat.pos_of_ne_zero hn)
        have := ((separated_iff _ _).mp h.2).1 f hf
        rw [Extent.holds_iff] at he hp
        omega
      simp [none, he]
    · simpa [he] using ih h.2

/-- R13: the page after an entry of an ordered list is not free. -/
theorem gap_after {low : Nat} {es : List Extent} (h : separated low es = true) {e f : Extent}
    (he : e ∈ es) (hf : f ∈ es) : f.holds (e.first + e.count) = false := by
  obtain ⟨-, hp⟩ := (separated_iff _ _).mp h
  rw [Bool.eq_false_iff, ne_eq, Extent.holds_iff]
  rintro ⟨h1, h2⟩
  by_cases heq : e = f
  · subst heq; omega
  · rcases List.pairwise_iff_getElem.mp hp with hp'
    obtain ⟨i, hi, rfl⟩ := List.getElem_of_mem he
    obtain ⟨j, hj, rfl⟩ := List.getElem_of_mem hf
    rcases Nat.lt_trichotomy i j with hij | hij | hij
    · have := hp' i j hi hj hij; omega
    · subst hij; exact heq rfl
    · have := hp' j i hj hi hij; omega

/-- R13: a run of free pages lies in one entry of an ordered list. -/
theorem run_in_one {es : List Extent} (h : separated 0 es = true) {p n : Nat} (hn : 1 ≤ n)
    (hr : ∀ page, p ≤ page → page < p + n → ∃ e ∈ es, e.holds page = true) :
    ∃ e ∈ es, e.first ≤ p ∧ p + n ≤ e.first + e.count := by
  obtain ⟨e, he, hp⟩ := hr p (Nat.le_refl p) (by omega)
  rw [Extent.holds_iff] at hp
  refine ⟨e, he, hp.1, ?_⟩
  by_contra hlt
  obtain ⟨f, hf, hq⟩ := hr (e.first + e.count) (by omega) (by omega)
  exact absurd hq (by simp [gap_after h he hf])

/-! ### First fit (R15) -/

theorem GuardRange.meets_iff (r : GuardRange) (first count : Nat) :
    r.meets first count = true ↔ r.first < first + count ∧ first ≤ r.last := by
  simp [GuardRange.meets]

/-- The `n` pages from a page meet no FENCE range. -/
def clear (fences : List GuardRange) (n p : Nat) : Prop := ∀ r ∈ fences, r.meets p n = false

theorem clear_iff {fences : List GuardRange} (hf : ∀ r ∈ fences, r.first ≤ r.last) {n : Nat}
    (hn : 1 ≤ n) (p : Nat) :
    clear fences n p ↔
      ∀ page, p ≤ page → page < p + n → ∀ r ∈ fences, ¬(r.first ≤ page ∧ page ≤ r.last) := by
  simp only [clear, Bool.eq_false_iff, ne_eq, GuardRange.meets_iff]
  constructor
  · intro h page h1 h2 r hr hc
    exact h r hr (by omega)
  · intro h r hr hc
    have := hf r hr
    exact h (max p r.first) (by omega) (by omega) r hr (by omega)

/-- R15: the page answered lies at or above the page asked for, and no page below it from there is clear. -/
theorem skipFences_bounds (fences : List GuardRange) (n : Nat) : ∀ turns p,
    p ≤ skipFences fences n turns p ∧
      ∀ q, p ≤ q → clear fences n q → skipFences fences n turns p ≤ q := by
  intro turns
  induction turns with
  | zero => intro p; exact ⟨Nat.le_refl p, fun q hq _ => hq⟩
  | succ t ih =>
    intro p
    unfold skipFences
    split
    · rename_i r hr
      have hm := (GuardRange.meets_iff r p n).mp (by simpa using List.find?_some hr)
      obtain ⟨h1, h2⟩ := ih (r.last + 1)
      refine ⟨by omega, fun q hq hc => h2 q ?_ hc⟩
      have hq' := hc r (List.mem_of_find?_eq_some hr)
      rw [Bool.eq_false_iff, ne_eq, GuardRange.meets_iff] at hq'
      omega
    · exact ⟨Nat.le_refl p, fun q hq _ => hq⟩

/-- A narrower test that leaves out an entry counts fewer of a list. -/
theorem countP_lt_of_imp {α : Type} {p q : α → Bool} {l : List α} (h : ∀ x, p x = true → q x = true) {x : α}
    (hx : x ∈ l) (hp : p x = false) (hq : q x = true) : l.countP p < l.countP q := by
  induction l with
  | nil => simp at hx
  | cons y l ih =>
    have mono : l.countP p ≤ l.countP q := List.countP_mono_left fun x _ => h x
    rcases List.mem_cons.mp hx with rfl | hx
    · simp only [List.countP_cons, hp, hq]; simp; omega
    · have := ih hx
      by_cases hy : p y = true
      · simpa [hy, h y hy] using this
      · simp only [List.countP_cons, hy]
        rw [if_neg (by simp)]
        omega

/-- R15: as many turns as there are ranges not yet passed lead to a clear page. -/
theorem skipFences_clear (fences : List GuardRange) (n : Nat) : ∀ turns p,
    (fences.countP fun r => decide (p ≤ r.last)) ≤ turns →
      clear fences n (skipFences fences n turns p) := by
  intro turns
  induction turns with
  | zero =>
    intro p h r hr
    have := List.countP_eq_zero.mp (Nat.le_zero.mp h) r hr
    rw [Bool.eq_false_iff, ne_eq, GuardRange.meets_iff]
    rw [decide_eq_true_eq] at this
    rintro ⟨-, h2⟩
    exact this h2
  | succ t ih =>
    intro p h
    unfold skipFences
    split
    · rename_i r hr
      have hm := (GuardRange.meets_iff r p n).mp (by simpa using List.find?_some hr)
      refine ih (r.last + 1) (Nat.le_of_lt_succ (Nat.lt_of_lt_of_le ?_ h))
      exact countP_lt_of_imp (fun x hx => by rw [decide_eq_true_eq] at hx ⊢; omega)
        (List.mem_of_find?_eq_some hr) (by simp) (by simpa using hm.2)
    · rename_i hr
      intro r hr'
      have := List.find?_eq_none.mp hr r hr'
      rwa [Bool.not_eq_true] at this

/-- R15: a run of one extent at which the pages are placed. -/
def placeable (fences : List GuardRange) (n : Nat) (e : Extent) (p : Nat) : Prop :=
  e.first ≤ p ∧ p + n ≤ e.first + e.count ∧ clear fences n p

theorem placeIn_some {fences : List GuardRange} {n p : Nat} {e : Extent}
    (h : placeIn fences n e = some p) :
    placeable fences n e p ∧ ∀ q, placeable fences n e q → p ≤ q := by
  obtain ⟨hle, hmin⟩ := skipFences_bounds fences n fences.length e.first
  simp only [placeIn, Option.ite_none_right_eq_some, Option.some.injEq] at h
  obtain ⟨hfit, rfl⟩ := h
  exact ⟨⟨hle, hfit, skipFences_clear fences n _ _ List.countP_le_length⟩,
    fun q hq => hmin q hq.1 hq.2.2⟩

theorem placeIn_none {fences : List GuardRange} {n : Nat} {e : Extent}
    (h : placeIn fences n e = none) (q : Nat) : ¬placeable fences n e q := by
  rintro ⟨h1, h2, h3⟩
  have := (skipFences_bounds fences n fences.length e.first).2 q h1 h3
  simp only [placeIn, ite_eq_right_iff, reduceCtorEq, imp_false] at h
  omega

/-- R16: nothing is placed only where no entry has a place. -/
theorem allocate_none {fences : List GuardRange} {n : Nat} {es : List Extent}
    (h : allocate fences n es = none) : ∀ e ∈ es, ∀ q, ¬placeable fences n e q := by
  induction es with
  | nil => simp
  | cons e es ih =>
    unfold allocate at h
    split at h
    · exact absurd h (by simp)
    · rename_i hp
      rintro f hf
      rcases List.mem_cons.mp hf with rfl | hf
      · exact placeIn_none hp
      · exact ih (Option.map_eq_none_iff.mp h) f hf

/-- R15: what a placement answers: the lowest place of all entries, and the list without its pages, in its
order. -/
theorem allocate_some {fences : List GuardRange} {n : Nat} (hn : 1 ≤ n) {es rest : List Extent} {low p : Nat}
    (hs : separated low es = true) (h : allocate fences n es = some (p, rest)) :
    (∃ e ∈ es, placeable fences n e p) ∧ (∀ e ∈ es, ∀ q, placeable fences n e q → p ≤ q) ∧
      separated low rest = true ∧
      ∀ page, holders rest page + (if Extent.holds ⟨p, n⟩ page then 1 else 0) = holders es page := by
  induction es generalizing low rest with
  | nil => simp [allocate] at h
  | cons e es ih =>
    have hall := (separated_iff low (e :: es)).mp hs
    have hafter := List.pairwise_cons.mp hall.2
    simp only [separated, Bool.and_eq_true, decide_eq_true_eq] at hs
    obtain ⟨⟨⟨hlow, hcount⟩, hend⟩, htail⟩ := hs
    unfold allocate at h
    split at h
    · rename_i q hq
      obtain ⟨hplace, hmin⟩ := placeIn_some hq
      obtain ⟨rfl, rfl⟩ := Prod.mk.inj (Option.some.inj h)
      have ⟨h1, h2, _⟩ := hplace
      refine ⟨⟨e, List.mem_cons_self .., hplace⟩, fun f hf q' hq' => ?_, ?_, fun page => ?_⟩
      · rcases List.mem_cons.mp hf with rfl | hf
        · exact hmin q' hq'
        · have := hafter.1 f hf
          have := hq'.1
          omega
      · split <;> split <;> simp only [List.nil_append, List.cons_append, separated, Bool.and_eq_true,
          decide_eq_true_eq]
        · exact ((separated_iff _ _).mpr ⟨fun f hf => by
            have := ((separated_iff _ _).mp htail).1 f hf; omega, hafter.2⟩)
        · refine ⟨⟨⟨by omega, by omega⟩, by omega⟩, ?_⟩
          rwa [show q + n + (e.first + e.count - (q + n)) = e.first + e.count by omega]
        · refine ⟨⟨⟨by omega, by omega⟩, by omega⟩, ?_⟩
          exact ((separated_iff _ _).mpr ⟨fun f hf => by
            have := ((separated_iff _ _).mp htail).1 f hf; omega, hafter.2⟩)
        · refine ⟨⟨⟨by omega, by omega⟩, by omega⟩, ⟨⟨by omega, by omega⟩, by omega⟩, ?_⟩
          rwa [show q + n + (e.first + e.count - (q + n)) = e.first + e.count by omega]
      · have he : e.holds page = true ↔ e.first ≤ page ∧ page < e.first + e.count := e.holds_iff page
        split <;> split <;> simp [Extent.holds_iff, he] <;> split_ifs <;> omega
    · rename_i hq
      obtain ⟨r, hr, hpr⟩ := Option.map_eq_some_iff.mp h
      obtain ⟨rfl, rfl⟩ := Prod.mk.inj hpr
      obtain ⟨⟨f, hf, hplace⟩, hmin, hsep, hcnt⟩ := ih htail hr
      refine ⟨⟨f, List.mem_cons_of_mem _ hf, hplace⟩, fun g hg q' hq' => ?_, ?_, fun page => ?_⟩
      · rcases List.mem_cons.mp hg with rfl | hg
        · exact absurd hq' (placeIn_none hq q')
        · exact hmin g hg q' hq'
      · simp only [separated, Bool.and_eq_true, decide_eq_true_eq]
        exact ⟨⟨⟨hlow, hcount⟩, hend⟩, hsep⟩
      · simp only [holders_cons, ← hcnt page]
        omega

/-! ### Returned extents (R17) -/

/-- R17: a return adds one holder to each of its pages, merged or not. -/
theorem holders_giveBack (x : Extent) (es : List Extent) (page : Nat) :
    holders (giveBack x es) page = holders es page + if x.holds page then 1 else 0 := by
  induction es with
  | nil => simp [giveBack]
  | cons e es ih =>
    unfold giveBack
    split
    · simp
    · split
      · rename_i h
        simp only [holders_cons, holds_joined h]
        omega
      · split
        · rename_i h
          cases es with
          | nil => simp only [holders_cons, holders_nil, holds_joined h]; omega
          | cons f es =>
            simp only
            split
            · rename_i h'
              have := holds_joined (x := ⟨e.first, e.count + x.count⟩) (y := f) (by simp only; omega) page
              simp only [holders_cons, this, holds_joined h]
              omega
            · simp only [holders_cons, holds_joined h]
              omega
        · simp only [holders_cons, ih]
          omega

/-- R17: a returned extent of no free page leaves the list in its order. -/
theorem separated_giveBack {x : Extent} (hx : 0 < x.count) (hend : x.first + x.count ≤ Config.pages)
    {es : List Extent} {low : Nat} (hs : separated low es = true) (hlow : low ≤ x.first)
    (hd : ∀ e ∈ es, x.first + x.count ≤ e.first ∨ e.first + e.count ≤ x.first) :
    separated low (giveBack x es) = true := by
  induction es generalizing low with
  | nil => simpa [giveBack, separated, hx, hlow] using hend
  | cons e es ih =>
    have hd' := List.forall_mem_cons.mp hd
    simp only [separated, Bool.and_eq_true, decide_eq_true_eq] at hs
    obtain ⟨⟨⟨h1, h2⟩, h3⟩, h4⟩ := hs
    unfold giveBack
    split
    · simp only [separated, Bool.and_eq_true, decide_eq_true_eq]
      exact ⟨⟨⟨hlow, hx⟩, hend⟩, ⟨⟨by omega, h2⟩, h3⟩, h4⟩
    · split
      · simp only [separated, Bool.and_eq_true, decide_eq_true_eq]
        refine ⟨⟨⟨hlow, by omega⟩, by omega⟩, ?_⟩
        rwa [show x.first + (x.count + e.count) = e.first + e.count by omega]
      · split
        · cases es with
          | nil =>
            simp only [separated, Bool.and_eq_true, decide_eq_true_eq]
            exact ⟨⟨⟨h1, by omega⟩, by omega⟩, trivial⟩
          | cons f es =>
            have hf := hd'.2 f (List.mem_cons_self ..)
            simp only [separated, Bool.and_eq_true, decide_eq_true_eq] at h4
            obtain ⟨⟨⟨f1, f2⟩, f3⟩, f4⟩ := h4
            simp only
            split <;> simp only [separated, Bool.and_eq_true, decide_eq_true_eq]
            · refine ⟨⟨⟨h1, by omega⟩, by omega⟩, ?_⟩
              rwa [show e.first + (e.count + x.count + f.count) = f.first + f.count by omega]
            · exact ⟨⟨⟨h1, by omega⟩, by omega⟩, ⟨⟨by omega, f2⟩, f3⟩, f4⟩
        · simp only [separated, Bool.and_eq_true, decide_eq_true_eq]
          exact ⟨⟨⟨h1, h2⟩, h3⟩, ih h4 (by omega) hd'.2⟩

/-- Two runs of pages with no page in common lie one after the other. -/
theorem apart_of_disjoint {x e : Extent} (hx : 0 < x.count) (he : 0 < e.count)
    (h : ∀ page, x.holds page = true → e.holds page = false) :
    x.first + x.count ≤ e.first ∨ e.first + e.count ≤ x.first := by
  by_contra hc
  have := h (max x.first e.first) ((x.holds_iff _).mpr (by omega))
  rw [Bool.eq_false_iff, ne_eq, Extent.holds_iff] at this
  omega

/-- R13, R17: a returned extent of no free page: the list stays ordered. -/
theorem separated_giveBack_of_disjoint {x : Extent} (hx : 0 < x.count)
    (hend : x.first + x.count ≤ Config.pages) {es : List Extent} (hs : separated 0 es = true)
    (hd : ∀ page, x.holds page = true → holders es page = 0) : separated 0 (giveBack x es) = true := by
  refine separated_giveBack hx hend hs (Nat.zero_le _) fun e he => ?_
  refine apart_of_disjoint hx (((separated_iff _ _).mp hs).1 e he).2.1 fun page hp => ?_
  rw [Bool.eq_false_iff]
  intro hc
  have := holders_pos.mpr ⟨e, he, hc⟩
  have := hd page hp
  omega

end Sys2Proof.Machine

namespace Sys2Proof.Proofs

open Machine

/-- Settles O36: first fit by the least place in each entry, the merge by the count of holders. -/
theorem extentsArePlacedAndReturned : Obligations.ExtentsArePlacedAndReturned := by
  intro fences n free hn hs hf fits
  have fits_iff : ∀ p, fits p ↔ ∃ e ∈ free, placeable fences n e p := by
    intro p
    constructor
    · intro h
      obtain ⟨e, he, h1, h2⟩ := run_in_one hs hn fun page a b => (h page a b).1
      exact ⟨e, he, h1, h2, (clear_iff hf hn p).mpr fun page a b => (h page a b).2⟩
    · rintro ⟨e, he, h1, h2, hc⟩ page a b
      exact ⟨⟨e, he, (e.holds_iff page).mpr (by omega)⟩, (clear_iff hf hn p).mp hc page a b⟩
  refine ⟨fun h p hp => ?_, fun p rest h => ?_, fun p hend hd => ?_⟩
  · obtain ⟨e, he, hp⟩ := (fits_iff p).mp hp
    exact allocate_none h e he p hp
  · obtain ⟨hplace, hmin, hsep, hcnt⟩ := allocate_some hn hs h
    refine ⟨(fits_iff p).mpr hplace, fun q hq => ?_, hsep, fun page => ?_⟩
    · obtain ⟨e, he, hq⟩ := (fits_iff q).mp hq
      exact hmin e he q hq
    · have hone := holders_le_one hs page
      have hpage := hcnt page
      rw [← holders_pos, ← holders_pos, ← Extent.holds_iff ⟨p, n⟩]
      split at hpage <;> rename_i hx <;> simp only [hx] <;> simp <;> omega
  · have hzero : ∀ page, Extent.holds ⟨p, n⟩ page = true → holders free page = 0 := by
      intro page hp
      rw [Extent.holds_iff] at hp
      exact List.countP_eq_zero.mpr fun e he => by simp [hd page hp.1 hp.2 e he]
    refine ⟨separated_giveBack_of_disjoint (x := ⟨p, n⟩) hn hend hs hzero, fun page => ?_⟩
    rw [← holders_pos, ← holders_pos, holders_giveBack, ← Extent.holds_iff ⟨p, n⟩]
    split <;> rename_i hx <;> simp [hx]

end Sys2Proof.Proofs
end

section
/-!
Handles and live images for the invariants: the handle records as a function of the handle, the live images
as those of one handle and the others, the owners of a page as the holders of a list of extents; and the
invariant of pages said through these.
-/
namespace Sys2Proof.Machine

/-! ### The handle records -/

/-- The key of an entry of a store with rising keys finds it. -/
theorem Sparse.find_of_mem {α : Type} {m : List (Nat × α)} (hr : Sparse.rising m = true) {k : Nat} {v : α}
    (h : (k, v) ∈ m) : Sparse.find m k = some v := by
  rw [Sparse.rising_iff] at hr
  induction m with
  | nil => simp at h
  | cons e m ih =>
    obtain ⟨j, w⟩ := e
    have hp := List.pairwise_cons.mp hr
    rcases List.mem_cons.mp h with he | hm
    · cases he; simp [Sparse.find]
    · have : j ≠ k := Nat.ne_of_lt (hp.1 _ hm)
      simp [Sparse.find, this, ih hp.2 hm]

/-- The handle records are in their canonical form. -/
def State.listed (s : State) : Prop := Sparse.canonical HandleRecord.empty s.handles = true

theorem State.listed.rising {s : State} (h : s.listed) : Sparse.rising s.handles = true := by
  simp only [State.listed, Sparse.canonical, Bool.and_eq_true] at h
  exact h.1

theorem State.listed.mem_iff {s : State} (hl : s.listed) {h : Nat} {r : HandleRecord} :
    (h, r) ∈ s.handles ↔ r ≠ HandleRecord.empty ∧ s.handle h = r := by
  have hc := hl
  simp only [State.listed, Sparse.canonical, Bool.and_eq_true, List.all_eq_true,
    decide_eq_true_eq] at hc
  constructor
  · intro hm
    exact ⟨hc.2 _ hm, by simp [State.handle, Sparse.get, Sparse.find_of_mem hc.1 hm]⟩
  · rintro ⟨hne, he⟩
    unfold State.handle Sparse.get at he
    cases hf : Sparse.find s.handles h with
    | none => rw [hf] at he; exact absurd he.symm hne
    | some v =>
      rw [hf] at he
      cases he
      exact Sparse.mem_of_find hf

theorem State.listed.forall_mem {s : State} (hl : s.listed) {P : Nat → HandleRecord → Prop} :
    (∀ e ∈ s.handles, P e.1 e.2) ↔ ∀ h, s.handle h ≠ HandleRecord.empty → P h (s.handle h) := by
  constructor
  · intro hp h hne
    exact hp (h, s.handle h) (hl.mem_iff.mpr ⟨hne, rfl⟩)
  · rintro hp ⟨h, r⟩ hm
    obtain ⟨hne, rfl⟩ := hl.mem_iff.mp hm
    exact hp h hne

theorem State.listed.setHandle {s : State} (hl : s.listed) (h : Nat) (r : HandleRecord) :
    (s.setHandle h r).listed := Sparse.canonical_set _ _ _ _ hl

/-- What every handle reads as after a write. -/
theorem State.listed.handle_setHandle {s : State} (hl : s.listed) (h k : Nat) (r : HandleRecord) :
    (s.setHandle h r).handle k = if k = h then r else s.handle k := by
  by_cases hk : k = h
  · subst hk
    rw [if_pos rfl]
    exact Sparse.get_set_self _ _ _ _ hl.rising
  · rw [if_neg hk, State.handle_setHandle_ne s hk]

/-- A change of every record is read at every handle. -/
theorem State.handle_mapImages (s : State) (f : Image → Image) (h : Nat) :
    (s.mapImages f).handle h = ⟨(s.handle h).current.map f, (s.handle h).incoming.map f⟩ := by
  have hf : ∀ m : List (Nat × HandleRecord),
      Sparse.find (m.map fun e => (e.1, (⟨e.2.current.map f, e.2.incoming.map f⟩ : HandleRecord))) h =
        (Sparse.find m h).map fun r => ⟨r.current.map f, r.incoming.map f⟩ := by
    intro m
    induction m with
    | nil => rfl
    | cons e m ih =>
      simp only [List.map_cons, Sparse.find, ih]
      split <;> rfl
  unfold State.handle Sparse.get State.mapImages
  simp only [hf]
  cases Sparse.find s.handles h <;> rfl

theorem State.listed.mapImages {s : State} (hl : s.listed) (f : Image → Image) :
    (s.mapImages f).listed := by
  simp only [State.listed, Sparse.canonical, Bool.and_eq_true, Sparse.rising_iff, List.all_eq_true,
    decide_eq_true_eq, State.mapImages, List.pairwise_map, List.forall_mem_map] at hl ⊢
  refine ⟨hl.1, fun e he hn => hl.2 e he ?_⟩
  obtain ⟨k, cur, inc⟩ := e
  simp only [HandleRecord.empty, HandleRecord.mk.injEq, Option.map_eq_none_iff] at hn ⊢
  exact hn

/-! ### The images of one handle, and the others -/

/-- The live images that are not of a handle. -/
def State.others (s : State) (h : Nat) : List Image :=
  (Sparse.erase s.handles h).flatMap (fun e => e.2.images) ++ s.retired.map RetiredEntry.image

theorem State.liveImages_perm (s : State) (h : Nat) :
    s.liveImages.Perm ((s.handle h).images ++ s.others h) := by
  have key : ∀ m : List (Nat × HandleRecord), (m.flatMap fun e => e.2.images).Perm
      ((Sparse.get HandleRecord.empty m h).images ++
        (Sparse.erase m h).flatMap fun e => e.2.images) := by
    intro m
    induction m with
    | nil => simp [Sparse.get, Sparse.find, Sparse.erase, HandleRecord.images, HandleRecord.empty]
    | cons e m ih =>
      obtain ⟨k, r⟩ := e
      by_cases hk : k = h
      · simp [Sparse.get, Sparse.find, Sparse.erase, hk]
      · simp only [Sparse.get, Sparse.find, Sparse.erase, hk, if_false, List.flatMap_cons] at ih ⊢
        refine (List.Perm.append_left _ ih).trans ?_
        rw [← List.append_assoc, ← List.append_assoc]
        exact List.Perm.append_right _ List.perm_append_comm
  rw [State.liveImages, State.others, ← List.append_assoc]
  exact List.Perm.append_right _ (key s.handles)

theorem State.listed.others_setHandle {s : State} (hl : s.listed) (h : Nat) (r : HandleRecord) :
    (s.setHandle h r).others h = s.others h := by
  have he : Sparse.erase (s.setHandle h r).handles h = Sparse.erase s.handles h := by
    rw [State.setHandle_handles]
    unfold Sparse.set
    split
    · exact Sparse.erase_of_find_none _ (Sparse.find_erase_self _ _ hl.rising)
    · exact Sparse.erase_put_self _ _ _ hl.rising
  rw [State.others, he]
  rfl

theorem State.listed.liveImages_setHandle {s : State} (hl : s.listed) (h : Nat) (r : HandleRecord) :
    (s.setHandle h r).liveImages.Perm (r.images ++ s.others h) := by
  have := (s.setHandle h r).liveImages_perm h
  rwa [hl.others_setHandle, hl.handle_setHandle, if_pos rfl] at this

/-- A write of a handle that keeps what a function sees of its images keeps what it sees of the live ones. -/
theorem State.listed.map_setHandle {β : Type} {s : State} (hl : s.listed) (f : Image → β) {h : Nat}
    {r : HandleRecord} (hr : (r.images.map f).Perm ((s.handle h).images.map f)) :
    ((s.setHandle h r).liveImages.map f).Perm (s.liveImages.map f) := by
  refine ((hl.liveImages_setHandle h r).map f).trans (List.Perm.trans ?_ ((s.liveImages_perm h).map f).symm)
  rw [List.map_append, List.map_append]
  exact hr.append_right _

theorem State.listed.mem_liveImages {s : State} (hl : s.listed) {i : Image} :
    i ∈ s.liveImages ↔ (∃ h, (s.handle h).current = some i ∨ (s.handle h).incoming = some i) ∨
      ∃ e ∈ s.retired, e.image = i := by
  constructor
  · intro hi
    rcases List.mem_append.mp hi with hi | hi
    · obtain ⟨⟨h, r⟩, he, hi⟩ := List.mem_flatMap.mp hi
      obtain ⟨-, rfl⟩ := hl.mem_iff.mp he
      refine Or.inl ⟨h, ?_⟩
      simpa [HandleRecord.images] using hi
    · exact Or.inr (List.mem_map.mp hi)
  · rintro (⟨h, hi⟩ | ⟨e, he, rfl⟩)
    · refine (s.liveImages_perm h).mem_iff.mpr (List.mem_append_left _ ?_)
      simpa [HandleRecord.images] using hi
    · exact List.mem_append_right _ (List.mem_map_of_mem he)

/-! ### Owners -/

/-- The run of pages that an image has. -/
def Image.extent (i : Image) : Extent := ⟨i.firstPage, i.pageCount⟩

/-- R14: a page's owners are the holders among the free extents and the extents of the live images. -/
theorem State.owners_eq (s : State) (page : Nat) :
    s.owners page = holders s.free page + holders (s.liveImages.map Image.extent) page := by
  rw [State.owners, holders, holders, List.countP_map, List.countP_eq_length_filter,
    List.countP_eq_length_filter]
  rfl

theorem holders_perm {es fs : List Extent} (h : es.Perm fs) (page : Nat) :
    holders es page = holders fs page := h.countP_eq _

/-- What the invariant of pages sees of an image's extent. -/
def Image.footprint (i : Image) : Extent × Nat := (i.extent, i.sampleLength)

@[simp] theorem Image.fst_comp_footprint : Prod.fst ∘ Image.footprint = Image.extent := rfl

@[simp] theorem Image.footprint_fst (i : Image) : i.footprint.1 = i.extent := rfl

theorem Image.extentFits_of_footprint {i j : Image} (h : i.footprint = j.footprint) (hj : j.extentFits) :
    i.extentFits := by
  obtain ⟨he, hs⟩ := Prod.mk.inj h
  obtain ⟨hf, hc⟩ := Extent.mk.inj he
  unfold Image.extentFits at hj ⊢
  rw [hf, hc, hs]
  exact hj

/-- Live images with the same extents are owners alike, and fit alike. -/
theorem State.PagesWf.of_footprints {s t : State} (hs : s.PagesWf) (hf : t.free = s.free)
    (hl : (t.liveImages.map Image.footprint).Perm (s.liveImages.map Image.footprint)) :
    (∀ page, page < Config.pages → t.owners page = 1) ∧ ∀ i ∈ t.liveImages, i.extentFits := by
  constructor
  · intro page hp
    rw [← hs.owned page hp, State.owners_eq, State.owners_eq, hf]
    have : (t.liveImages.map Image.extent).Perm (s.liveImages.map Image.extent) := by
      simpa only [List.map_map, Image.fst_comp_footprint] using hl.map Prod.fst
    rw [holders_perm this]
  · intro i hi
    obtain ⟨j, hj, he⟩ := List.mem_map.mp (hl.mem_iff.mp (List.mem_map_of_mem hi))
    exact Image.extentFits_of_footprint he.symm (hs.extents j hj)

/-- An image that ends gives its extent back: the list stays ordered, and every page keeps one owner. -/
theorem State.PagesWf.of_returned {s t : State} (hs : s.PagesWf) {i : Image}
    (hf : t.free = giveBack i.extent s.free)
    (hl : (s.liveImages.map Image.footprint).Perm (i.footprint :: t.liveImages.map Image.footprint)) :
    separated 0 t.free = true ∧ (∀ page, page < Config.pages → t.owners page = 1) ∧
      ∀ j ∈ t.liveImages, j.extentFits := by
  have mem : ∀ x, x ∈ i.footprint :: t.liveImages.map Image.footprint → ∃ j ∈ s.liveImages,
      j.footprint = x := fun x hx => List.mem_map.mp (hl.mem_iff.mpr hx)
  have ext : ∀ page, holders (s.liveImages.map Image.extent) page =
      holders (i.extent :: t.liveImages.map Image.extent) page := fun page => by
    refine holders_perm ?_ page
    simpa only [List.map_cons, List.map_map, Image.fst_comp_footprint, Image.footprint_fst] using hl.map Prod.fst
  have fits : i.extentFits := by
    obtain ⟨j, hj, he⟩ := mem _ (List.mem_cons_self ..)
    exact Image.extentFits_of_footprint he.symm (hs.extents j hj)
  refine ⟨?_, fun page hp => ?_, fun j hj => ?_⟩
  · rw [hf]
    refine separated_giveBack_of_disjoint fits.1 fits.2.1 hs.free fun page hp => ?_
    have hlt := (Extent.holds_iff _ _).mp hp
    have hone := hs.owned page (Nat.lt_of_lt_of_le hlt.2 fits.2.1)
    rw [State.owners_eq, ext, holders_cons, if_pos hp] at hone
    omega
  · have hone := hs.owned page hp
    rw [State.owners_eq, ext, holders_cons] at hone
    rw [State.owners_eq, hf, holders_giveBack]
    omega
  · obtain ⟨k, hk, he⟩ := mem _ (List.mem_cons_of_mem _ (List.mem_map_of_mem hj))
    exact Image.extentFits_of_footprint he.symm (hs.extents k hk)

/-- Distinct live images have pages of their own: there are no more of them than pages. -/
theorem State.PagesWf.length_liveImages_le {s : State} (hs : s.PagesWf) :
    s.liveImages.length ≤ Config.pages := by
  have inj : ∀ l : List Image, (∀ i ∈ l, i.extentFits) →
      (∀ page, page < Config.pages → holders (l.map Image.extent) page ≤ 1) →
      (l.map Image.firstPage).Nodup := by
    intro l
    induction l with
    | nil => simp
    | cons i l ih =>
      intro hf ho
      rw [List.map_cons, List.nodup_cons]
      have hfi := hf i (List.mem_cons_self ..)
      refine ⟨fun hm => ?_, ih (fun j hj => hf j (List.mem_cons_of_mem _ hj)) fun page hp => ?_⟩
      · obtain ⟨j, hj, he⟩ := List.mem_map.mp hm
        have hfj := hf j (List.mem_cons_of_mem _ hj)
        have h1 : i.extent.holds i.firstPage = true :=
          (Extent.holds_iff _ _).mpr ⟨Nat.le_refl _, Nat.lt_add_of_pos_right hfi.1⟩
        have h2 : 0 < holders (l.map Image.extent) i.firstPage :=
          holders_pos.mpr ⟨j.extent, List.mem_map_of_mem hj, (Extent.holds_iff _ _).mpr
            ⟨Nat.le_of_eq he, he ▸ Nat.lt_add_of_pos_right hfj.1⟩⟩
        have h3 := ho i.firstPage (by have := hfi.1; have := hfi.2.1; omega)
        rw [List.map_cons, holders_cons, if_pos h1] at h3
        omega
      · have := ho page hp
        rw [List.map_cons, holders_cons] at this
        omega
  have hn := inj s.liveImages hs.extents fun page hp => by
    have := hs.owned page hp
    rw [State.owners_eq] at this
    omega
  have hsub : s.liveImages.map Image.firstPage ⊆ List.range Config.pages := fun p hp => by
    obtain ⟨i, hi, rfl⟩ := List.mem_map.mp hp
    have hfit := hs.extents i hi
    exact List.mem_range.mpr (by have := hfit.1; have := hfit.2.1; omega)
  simpa using (hn.subperm hsub).length_le

/-! ### The invariant of pages, at the handles -/

/-- R23: an incoming image is LOADING, with page indices of its own in its written-page set, or READY. -/
def Image.incomingWf (i : Image) : Prop :=
  (∃ c w, i.phase = .loading c w ∧ w.Pairwise (· < ·) ∧ ∀ k ∈ w, k < i.pageCount) ∨
    ∃ g c, i.phase = .ready g c

/-- R23: a current image is READY. -/
def HandleRecord.imagesWf (r : HandleRecord) : Prop :=
  (∀ i, r.current = some i → ∃ g c, i.phase = .ready g c) ∧ ∀ i, r.incoming = some i → i.incomingWf

theorem State.handlesWf_iff (s : State) :
    s.handlesWf ↔ s.listed ∧ (∀ h, s.handle h ≠ HandleRecord.empty → h < 1024) ∧
      ∀ h, (s.handle h).imagesWf := by
  unfold State.handlesWf
  refine and_congr_right fun hl : s.listed => ?_
  change (_ ∧ _ ∧ ∀ e ∈ s.handles, ∀ i, e.2.incoming = some i → i.incomingWf) ↔ _
  rw [hl.forall_mem (P := fun h _ => h < 1024),
    hl.forall_mem (P := fun _ r => ∀ i, r.current = some i → ∃ g c, i.phase = .ready g c),
    hl.forall_mem (P := fun _ r => ∀ i, r.incoming = some i → i.incomingWf)]
  refine and_congr_right fun _ => ?_
  constructor
  · rintro ⟨hcur, hinc⟩ h
    refine ⟨fun i hi => hcur h (fun hn => ?_) i hi, fun i hi => hinc h (fun hn => ?_) i hi⟩ <;>
      · rw [hn] at hi; cases hi
  · intro hw
    exact ⟨fun h _ => (hw h).1, fun h _ => (hw h).2⟩

/-- R174: the image is LOADING and filled by an import. -/
def Image.beingImported (i : Image) : Prop := i.source = .imported ∧ ∃ c w, i.phase = .loading c w

/-- R174: what the import in flight says of its image. -/
def ImportRecord.fills (r : ImportRecord) (i : Image) : Prop :=
  i.source = .imported ∧ (∃ c, i.phase = .loading c (List.range r.nextPage)) ∧ i.serial = r.serial ∧
    i.sampleLength = r.sampleLength ∧ i.pageCount = r.pageCount ∧ r.nextPage < r.pageCount

theorem ImportRecord.fills.beingImported {r : ImportRecord} {i : Image} (h : r.fills i) :
    i.beingImported := by
  obtain ⟨hs, ⟨c, hp⟩, -⟩ := h
  exact ⟨hs, c, _, hp⟩

theorem State.listed.importAgrees_iff {s : State} (hl : s.listed) :
    s.importAgrees ↔ s.importer.reading.isSome = s.importer.record.isSome ∧
      (∀ r, s.importer.record = some r → ∃ i, (s.handle r.handle).incoming = some i ∧ r.fills i) ∧
      ∀ h i, (s.handle h).incoming = some i → i.beingImported →
        ∃ r, s.importer.record = some r ∧ r.handle = h := by
  unfold State.importAgrees
  refine and_congr_right fun _ => and_congr ?_ ?_
  · refine forall₂_congr fun r _ => ?_
    constructor
    · rintro ⟨i, c, hi, hs, hp, h⟩; exact ⟨i, hi, hs, ⟨c, hp⟩, h⟩
    · rintro ⟨i, hi, hs, ⟨c, hp⟩, h⟩; exact ⟨i, c, hi, hs, hp, h⟩
  · rw [hl.forall_mem (P := fun h r => ∀ i, r.incoming = some i → i.source = .imported →
      (∃ c w, i.phase = .loading c w) → ∃ r, s.importer.record = some r ∧ r.handle = h)]
    constructor
    · intro hp h i hi hb
      refine hp h (fun hn => ?_) i hi hb.1 hb.2
      rw [hn] at hi; cases hi
    · intro hp h _ i hi hs hb
      exact hp h i hi ⟨hs, hb⟩

theorem State.PagesWf.listed {s : State} (hs : s.PagesWf) : s.listed := hs.handles.1

theorem State.PagesWf.handle_lt {s : State} (hs : s.PagesWf) {h : Nat}
    (hn : s.handle h ≠ HandleRecord.empty) : h < 1024 :=
  ((State.handlesWf_iff s).mp hs.handles).2.1 h hn

theorem State.PagesWf.imagesWf {s : State} (hs : s.PagesWf) (h : Nat) : (s.handle h).imagesWf :=
  ((State.handlesWf_iff s).mp hs.handles).2.2 h

theorem State.PagesWf.fills {s : State} (hs : s.PagesWf) {r : ImportRecord}
    (hr : s.importer.record = some r) :
    ∃ i, (s.handle r.handle).incoming = some i ∧ r.fills i :=
  (hs.listed.importAgrees_iff.mp hs.importer).2.1 r hr

theorem State.PagesWf.record {s : State} (hs : s.PagesWf) {h : Nat} {i : Image}
    (hi : (s.handle h).incoming = some i) (hb : i.beingImported) :
    ∃ r, s.importer.record = some r ∧ r.handle = h :=
  (hs.listed.importAgrees_iff.mp hs.importer).2.2 h i hi hb

/-- R174: a handle without an image that an import fills is not the handle of the import in flight. -/
theorem State.PagesWf.handle_ne {s : State} (hs : s.PagesWf) {h : Nat}
    (hb : ∀ i, (s.handle h).incoming = some i → ¬i.beingImported) :
    ∀ r, s.importer.record = some r → r.handle ≠ h := by
  rintro r hr rfl
  obtain ⟨i, hi, hf⟩ := hs.fills hr
  exact hb i hi hf.beingImported

/-- The record written at a handle keeps the handles well formed. -/
theorem State.PagesWf.handlesWf_setHandle {s : State} (hs : s.PagesWf) {h : Nat} {r : HandleRecord}
    (hh : h < 1024) (hr : r.imagesWf) : (s.setHandle h r).handlesWf := by
  rw [State.handlesWf_iff]
  refine ⟨hs.listed.setHandle h r, fun k hk => ?_, fun k => ?_⟩
  · rw [hs.listed.handle_setHandle] at hk
    split at hk
    · rename_i he; rw [he]; exact hh
    · exact hs.handle_lt hk
  · rw [hs.listed.handle_setHandle]
    split
    · exact hr
    · exact hs.imagesWf k

/-- R174: where no image that the import fills comes or goes, the import in flight agrees as before. -/
theorem State.PagesWf.importAgrees_of {s t : State} (hs : s.PagesWf) (hl : t.listed)
    (hrec : t.importer.record = s.importer.record) (hread : t.importer.reading = s.importer.reading)
    (hin : ∀ h, (t.handle h).incoming = (s.handle h).incoming ∨
      (∀ r, s.importer.record = some r → r.handle ≠ h) ∧
        ∀ i, (t.handle h).incoming = some i → ¬i.beingImported) : t.importAgrees := by
  rw [hl.importAgrees_iff, hrec, hread]
  refine ⟨hs.importer.1, fun r hr => ?_, fun h i hi hb => ?_⟩
  · obtain ⟨i, hi, hf⟩ := hs.fills hr
    rcases hin r.handle with he | ⟨hne, -⟩
    · exact ⟨i, he ▸ hi, hf⟩
    · exact absurd rfl (hne r hr)
  · rcases hin h with he | ⟨-, hn⟩
    · exact hs.record (he ▸ hi) hb
    · exact absurd hb (hn i hi)

/-- The same for a write at one handle. -/
theorem State.PagesWf.importAgrees_setHandle {s : State} (hs : s.PagesWf) {h : Nat} {r : HandleRecord}
    (hin : r.incoming = (s.handle h).incoming ∨
      (∀ i, (s.handle h).incoming = some i → ¬i.beingImported) ∧
        ∀ i, r.incoming = some i → ¬i.beingImported) : (s.setHandle h r).importAgrees := by
  refine hs.importAgrees_of (hs.listed.setHandle h r) rfl rfl fun k => ?_
  rw [hs.listed.handle_setHandle]
  split
  · rename_i he
    subst he
    exact hin.imp_right fun ⟨h1, h2⟩ => ⟨hs.handle_ne h1, h2⟩
  · exact Or.inl rfl

end Sys2Proof.Machine
end

section
/-!
What the part can do to images, their pages and the import in flight, each kind of change named once
(`ImageStep`), and that each keeps the invariant of pages.
-/
namespace Sys2Proof.Machine

/-! ### Writes of a handle, one after another -/

theorem Sparse.put_put {α : Type} (m : List (Nat × α)) (k : Nat) (v w : α) :
    Sparse.put (Sparse.put m k v) k w = Sparse.put m k w := by
  induction m with
  | nil => simp [Sparse.put]
  | cons e m ih =>
    obtain ⟨j, x⟩ := e
    by_cases h1 : k < j
    · simp [Sparse.put, h1]
    · by_cases h2 : k = j
      · simp [Sparse.put, h2]
      · simp [Sparse.put, h1, h2, ih]

theorem Sparse.put_erase {α : Type} {m : List (Nat × α)} (hr : Sparse.rising m = true) (k : Nat) (v : α) :
    Sparse.put (Sparse.erase m k) k v = Sparse.put m k v := by
  induction m with
  | nil => rfl
  | cons e m ih =>
    obtain ⟨j, x⟩ := e
    have hr' : Sparse.risingFrom (some j) m = true := hr
    by_cases h : j = k
    · subst h
      simp only [Sparse.erase, if_true, Sparse.put, Nat.lt_irrefl, if_false]
      cases m with
      | nil => rfl
      | cons f m =>
        simp only [Sparse.risingFrom, Bool.and_eq_true, decide_eq_true_eq] at hr'
        simp [Sparse.put, hr'.1]
    · have h' : k ≠ j := fun e => h e.symm
      by_cases hk : k < j
      · have hf : Sparse.find m k = none :=
          Sparse.find_none_of_risingFrom m hr' (Nat.le_of_lt hk)
        simp [Sparse.erase, h, Sparse.put, hk, Sparse.erase_of_find_none _ hf]
      · simp only [Sparse.erase, h, if_false, Sparse.put, h', hk, ih (Sparse.rising_of_risingFrom m hr')]

/-- The last of two writes of a handle is the one that stands. -/
theorem State.listed.setHandle_setHandle {s : State} (hl : s.listed) (h : Nat) (r r' : HandleRecord) :
    (s.setHandle h r).setHandle h r' = s.setHandle h r' := by
  simp only [State.setHandle]
  congr 1
  unfold Sparse.set
  split <;> split
  · exact Sparse.erase_of_find_none _ (Sparse.find_erase_self _ _ hl.rising)
  · exact Sparse.erase_put_self _ _ _ hl.rising
  · exact Sparse.put_erase hl.rising _ _
  · exact Sparse.put_put _ _ _ _

/-! ### The parts of the state that the images, their pages and the import make up -/

/-- The state with everything at reset but the images, their pages and the import in flight. -/
def State.pages (s : State) : State :=
  { State.reset with
    handles := s.handles, retired := s.retired, serialCounter := s.serialCounter
    imagesMade := s.imagesMade, free := s.free, memory := s.memory, checkWords := s.checkWords
    importer := { Importer.reset with record := s.importer.record, reading := s.importer.reading } }

/-- The invariant of pages is about these parts alone. -/
theorem State.PagesWf.of_pages {s t : State} (h : t.pages = s.pages) (hs : s.PagesWf) : t.PagesWf := by
  have hp : t.pages.PagesWf := by
    rw [h]
    exact ⟨hs.free, hs.owned, hs.extents, hs.handles, hs.retired, hs.importer, hs.memory, hs.checkWords⟩
  exact ⟨hp.free, hp.owned, hp.extents, hp.handles, hp.retired, hp.importer, hp.memory, hp.checkWords⟩

/-! ### The changes -/

/-- The state after the last page of an import has been stored: the image READY, no import in flight. -/
def State.importedWhole (s : State) (r : ImportRecord) (i : Image) (data : List Byte) : State :=
  let s1 := s.writeImagePage r.handle i r.nextPage data
  { s1.setHandle r.handle { s1.handle r.handle with incoming := some (s1.readied i) } with
    importer := { s1.importer with record := none, reading := none } }

/-- What the part can do to images, their pages and the import in flight, besides references and resets. -/
inductive ImageStep (s : State) : State → Prop
  /-- nothing -/
  | none : ImageStep s s
  /-- R20: an image to be filled by requests -/
  | creates {h n : Nat} {flag : Bool} {i : Image} {u : State} (hh : h < 1024) (hn : 1 ≤ n)
      (hin : (s.handle h).incoming = .none) (hc : s.createImage h n .requests flag = some (i, u)) :
      ImageStep s u
  /-- R175, R176: an image to be filled by an import, whose first read begins -/
  | imports {h n a : Nat} {flag : Bool} {i : Image} {u : State} (hh : h < 1024) (hn : 1 ≤ n)
      (hrec : s.importer.record = .none) (hin : (s.handle h).incoming = .none)
      (hc : s.createImage h n .imported flag = some (i, u)) :
      ImageStep s (u.beginRead ⟨h, i.serial, a, n, i.pageCount, 0, flag⟩)
  /-- R21: a page of an image filled by requests -/
  | writes {h k : Nat} {i : Image} (data : List Byte) (hin : (s.handle h).incoming = some i)
      (ht : i.takesRequests = true) (hk : k < i.pageCount) : ImageStep s (s.writeImagePage h i k data)
  /-- R177: a page of the import in flight, with more to come -/
  | importsPage {r : ImportRecord} {i : Image} (data : List Byte) (hrec : s.importer.record = some r)
      (hin : (s.handle r.handle).incoming = some i) (hn : r.nextPage + 1 < r.pageCount) :
      ImageStep s ((s.writeImagePage r.handle i r.nextPage data).beginRead
        { r with nextPage := r.nextPage + 1 })
  /-- R178: the last page of the import in flight -/
  | importsWhole {r : ImportRecord} {i : Image} (data : List Byte) (hrec : s.importer.record = some r)
      (hin : (s.handle r.handle).incoming = some i) : ImageStep s (s.importedWhole r i data)
  /-- R22: an image filled by requests becomes READY -/
  | readies {h : Nat} {i : Image} (hin : (s.handle h).incoming = some i) (ht : i.takesRequests = true) :
      ImageStep s (s.setHandle h { s.handle h with incoming := some (s.readied i) })
  /-- R26: a READY image becomes current at a handle that has none -/
  | binds {h : Nat} {i : Image} (hcur : (s.handle h).current = .none)
      (hin : (s.handle h).incoming = some i) (hi : i.checked = true) :
      ImageStep s (s.setHandle h ⟨some i, .none⟩)
  /-- R26, R32: a current image leaves its handle, to the READY image that takes its place, if there is one -/
  | leaves {h : Nat} {old : Image} (hcur : (s.handle h).current = some old)
      (hin : ∀ i, (s.handle h).incoming = some i → i.checked = true) (hm : s.mayLeave old = .none) :
      ImageStep s ((s.setHandle h ⟨(s.handle h).incoming, .none⟩).dispose h old).2
  /-- R29: an incoming image that no import fills is discarded -/
  | discards {h : Nat} (hf : s.importFills h = false) : ImageStep s (s.discardIncoming h)
  /-- R180: the import in flight is cancelled -/
  | cancels (cause : CancelCause) : ImageStep s (s.cancelImport cause)
  /-- R192: a record is marked -/
  | marks (ident page : Nat) : ImageStep s (s.mapImages (Image.marked ident page))
  /-- R8: a page decays -/
  | decays {page : Nat} {data : List Byte} (hp : page < Config.pages) (hd : data.length = 512) :
      ImageStep s { s with memory := Memory.write s.memory (512 * page) data }

/-! ### Images created -/

/-- What the creation of an image answers (R3, R5, R15). -/
theorem State.createImage_some {s u : State} {h n : Nat} {source : FillSource} {flag : Bool} {i : Image}
    (hc : s.createImage h n source flag = some (i, u)) :
    ∃ first free, allocate (s.guards.ranges .fence) (pagesFor n) s.free = some (first, free) ∧
      i = ⟨s.imagesMade, freshSerial (s.liveImages.map Image.serial) s.liveImages.length s.serialCounter,
        first, pagesFor n, n, source, .loading flag [], 0⟩ ∧
      u = { s with free := free, serialCounter := serialAfter i.serial
                   imagesMade := s.imagesMade + 1 }.setHandle h
            { s.handle h with incoming := some i } := by
  unfold State.createImage at hc
  split at hc
  · exact absurd hc (by simp)
  · rename_i first free ha
    obtain ⟨rfl, rfl⟩ := Prod.mk.inj (Option.some.inj hc)
    exact ⟨first, free, ha, by simp, rfl⟩

/-- R3: the new image joins the live ones. -/
theorem State.PagesWf.liveImages_created {s u : State} (hs : s.PagesWf) {h n : Nat} {source : FillSource}
    {flag : Bool} {i : Image} (hin : (s.handle h).incoming = none)
    (hc : s.createImage h n source flag = some (i, u)) : u.liveImages.Perm (i :: s.liveImages) := by
  obtain ⟨first, free, -, -, rfl⟩ := State.createImage_some hc
  refine (State.listed.liveImages_setHandle (s := { s with
    free := free, serialCounter := serialAfter i.serial, imagesMade := s.imagesMade + 1 })
    hs.listed h _).trans ?_
  refine List.Perm.trans ?_ ((s.liveImages_perm h).cons i).symm
  simp only [HandleRecord.images, hin, Option.toList_none, Option.toList_some, List.append_nil,
    List.append_assoc, List.singleton_append]
  exact List.perm_middle

theorem State.PagesWf.handle_created {s u : State} (hs : s.PagesWf) {h n : Nat} {source : FillSource}
    {flag : Bool} {i : Image} (hc : s.createImage h n source flag = some (i, u)) :
    u.listed ∧ ∀ k, u.handle k =
      if k = h then { s.handle h with incoming := some i } else s.handle k := by
  obtain ⟨first, free, -, -, rfl⟩ := State.createImage_some hc
  have hl : State.listed { s with
    free := free, serialCounter := serialAfter i.serial, imagesMade := s.imagesMade + 1 } := hs.listed
  exact ⟨hl.setHandle h _, fun k => hl.handle_setHandle h k _⟩

/-- R3, R15: an image is created over pages that were free; the import in flight is said apart. -/
theorem State.PagesWf.created {s u : State} (hs : s.PagesWf) {h n : Nat} {source : FillSource}
    {flag : Bool} {i : Image} (hh : h < 1024) (hn : 1 ≤ n) (hin : (s.handle h).incoming = none)
    (hc : s.createImage h n source flag = some (i, u)) (x : Importer)
    (hx : ({ u with importer := x } : State).importAgrees) :
    ({ u with importer := x } : State).PagesWf := by
  have hl := hs.liveImages_created hin hc
  obtain ⟨first, free, ha, hi, hu⟩ := State.createImage_some hc
  have hp : 1 ≤ pagesFor n := by unfold pagesFor; omega
  obtain ⟨⟨e, he, h1, h2, -⟩, -, hsep, hcnt⟩ := allocate_some hp hs.free ha
  have hend := (((separated_iff _ _).mp hs.free).1 e he).2.2
  have hfits : i.extentFits := by rw [hi]; exact ⟨hp, by simp only; omega, rfl⟩
  have hfree : u.free = free := by rw [hu]; rfl
  refine ⟨?_, fun page hpage => ?_, fun j hj => ?_, ?_, ?_, hx, ?_, ?_⟩
  · change separated 0 u.free = true
    rw [hfree]; exact hsep
  · change u.owners page = 1
    have hext : i.extent = ⟨first, pagesFor n⟩ := by rw [hi]; rfl
    have hone := hs.owned page hpage
    have hheld := hcnt page
    rw [State.owners_eq] at hone
    rw [State.owners_eq, holders_perm (hl.map Image.extent), List.map_cons, holders_cons, hext, hfree]
    omega
  · rcases List.mem_cons.mp (hl.mem_iff.mp hj) with rfl | hj
    · exact hfits
    · exact hs.extents j hj
  · change u.handlesWf
    rw [hu]
    have hb : State.PagesWf s → HandleRecord.imagesWf { s.handle h with incoming := some i } := fun hs =>
      ⟨(hs.imagesWf h).1, fun j hj => by
        cases hj; rw [hi]; exact Or.inl ⟨flag, [], rfl, List.Pairwise.nil, by simp⟩⟩
    exact hs.handlesWf_setHandle hh (hb hs)
  · change u.retiredWf
    rw [hu]; exact hs.retired
  · change Memory.wf u.memory = true
    rw [hu]; exact hs.memory
  · change Sparse.rising u.checkWords = true ∧ ∀ e ∈ u.checkWords, e.1 < Config.pages
    rw [hu]; exact hs.checkWords

theorem State.PagesWf.creates {s u : State} (hs : s.PagesWf) {h n : Nat} {flag : Bool} {i : Image}
    (hh : h < 1024) (hn : 1 ≤ n) (hin : (s.handle h).incoming = none)
    (hc : s.createImage h n .requests flag = some (i, u)) : u.PagesWf := by
  refine hs.created hh hn hin hc u.importer ?_
  obtain ⟨hl, hk⟩ := hs.handle_created hc
  obtain ⟨first, free, -, hi, hu⟩ := State.createImage_some hc
  refine hs.importAgrees_of (t := u) hl (by rw [hu]; rfl) (by rw [hu]; rfl) fun k => ?_
  rw [hk]
  split
  · rename_i he
    subst he
    refine Or.inr ⟨hs.handle_ne fun j hj => by simp [hin] at hj, fun j hj hb => ?_⟩
    have hij : i = j := Option.some.inj hj
    rw [← hij, hi] at hb
    exact absurd hb.1 (by simp)
  · exact Or.inl rfl

theorem State.PagesWf.imports {s u : State} (hs : s.PagesWf) {h n a : Nat} {flag : Bool} {i : Image}
    (hh : h < 1024) (hn : 1 ≤ n) (hrec : s.importer.record = none) (hin : (s.handle h).incoming = none)
    (hc : s.createImage h n .imported flag = some (i, u)) :
    (u.beginRead ⟨h, i.serial, a, n, i.pageCount, 0, flag⟩).PagesWf := by
  refine hs.created hh hn hin hc (u.beginRead _).importer ?_
  obtain ⟨hl, hk⟩ := hs.handle_created hc
  obtain ⟨first, free, -, hi, -⟩ := State.createImage_some hc
  refine (State.listed.importAgrees_iff (s := { u with importer := (u.beginRead _).importer }) hl).mpr
    ⟨rfl, fun r hr => ?_, fun k j hj hb => ?_⟩
  · cases hr
    have hp : 0 < pagesFor n := by unfold pagesFor; omega
    refine ⟨i, congrArg HandleRecord.incoming ((hk h).trans (if_pos rfl)), ?_⟩
    rw [hi]
    exact ⟨rfl, ⟨flag, rfl⟩, rfl, rfl, rfl, hp⟩
  · change (u.handle k).incoming = some j at hj
    rw [hk] at hj
    split at hj
    · rename_i he
      exact ⟨_, rfl, he.symm⟩
    · obtain ⟨r, hr, -⟩ := hs.record hj hb
      rw [hrec] at hr
      cases hr

/-! ### Pages stored and images made READY -/

/-- R10, R21: a page of a LOADING image. -/
theorem State.writeImagePage_loading (s : State) (h : Nat) {i : Image} {c : Bool} {w : List Nat} (k : Nat)
    (data : List Byte) (hp : i.phase = .loading c w) :
    s.writeImagePage h i k data = (s.storePage (i.firstPage + k) (i.pageContents k data)).setHandle h
      { s.handle h with incoming := some { i with phase := .loading c (insertIndex k w) } } := by
  simp only [State.writeImagePage, hp]

/-- R21: an index above all of the set is its last. -/
theorem insertIndex_of_gt {k : Nat} {w : List Nat} (h : ∀ j ∈ w, j < k) : insertIndex k w = w ++ [k] := by
  induction w with
  | nil => rfl
  | cons a w ih =>
    have h' := List.forall_mem_cons.mp h
    have ha := h'.1
    rw [insertIndex, if_neg (by omega), if_neg (by omega), ih h'.2, List.cons_append]

/-- R21: an index of the image joins its set. -/
theorem Image.incomingWf_insertIndex {i : Image} {c : Bool} {w : List Nat} {k : Nat} (hi : i.incomingWf)
    (hp : i.phase = .loading c w) (hk : k < i.pageCount) :
    Image.incomingWf { i with phase := .loading c (insertIndex k w) } := by
  rcases hi with ⟨c', w', hp', hw, hb⟩ | ⟨g, x, hp'⟩
  · rw [hp] at hp'
    obtain ⟨rfl, rfl⟩ := ImagePhase.loading.inj hp'
    refine Or.inl ⟨c, _, rfl, pairwise_insertIndex k w hw, fun j hj => ?_⟩
    rcases (mem_insertIndex k w j).mp hj with rfl | hj
    · exact hk
    · exact hb j hj
  · rw [hp] at hp'; cases hp'

/-- R10: the memory and the check store after data for a page of an image. -/
theorem State.PagesWf.stored {s : State} (hs : s.PagesWf) {page : Nat} (hp : page < Config.pages)
    {bs : List Byte} (hb : bs.length = 512) :
    Memory.wf (s.storePage page bs).memory = true ∧
      Sparse.rising (s.storePage page bs).checkWords = true ∧
      ∀ e ∈ (s.storePage page bs).checkWords, e.1 < Config.pages := by
  refine ⟨Memory.wf_write _ _ _ hs.memory (by rw [hb]; simp only [Config.pages] at hp; omega),
    Sparse.rising_put _ _ _ hs.checkWords.1, fun e he => ?_⟩
  rcases Sparse.mem_put _ _ _ he with rfl | he
  · exact hp
  · exact hs.checkWords.2 e he

/-- R174: the import in flight agrees in a state in which one handle was written. -/
theorem State.listed.importAgrees_written {s t : State} (hl : s.listed) {h : Nat} {r : HandleRecord}
    (hh : t.handles = (s.setHandle h r).handles)
    (hread : t.importer.reading.isSome = t.importer.record.isSome)
    (hfills : ∀ p, t.importer.record = some p →
      ∃ i, (if p.handle = h then r else s.handle p.handle).incoming = some i ∧ p.fills i)
    (hrec : ∀ k i, (if k = h then r else s.handle k).incoming = some i → i.beingImported →
      ∃ p, t.importer.record = some p ∧ p.handle = k) : t.importAgrees := by
  have hlt : t.listed := by
    unfold State.listed
    rw [hh]
    exact hl.setHandle h r
  have hk : ∀ k, t.handle k = if k = h then r else s.handle k := fun k => by
    rw [← hl.handle_setHandle, State.handle, hh]
    rfl
  simp only [hlt.importAgrees_iff, hk]
  exact ⟨hread, hfills, hrec⟩

/-- An incoming image whose record changes in its phase alone. -/
theorem State.PagesWf.refilled {s t : State} (hs : s.PagesWf) {h : Nat} {i j : Image}
    (hin : (s.handle h).incoming = some i) (hj : j.footprint = i.footprint) (hw : j.incomingWf)
    (hh : t.handles = (s.setHandle h { s.handle h with incoming := some j }).handles)
    (hr : t.retired = s.retired) (hf : t.free = s.free) (hm : Memory.wf t.memory = true)
    (hc : Sparse.rising t.checkWords = true ∧ ∀ e ∈ t.checkWords, e.1 < Config.pages)
    (hi : t.importAgrees) : t.PagesWf := by
  have hlt : h < 1024 := hs.handle_lt fun hn => by rw [hn] at hin; cases hin
  have hlive : t.liveImages = (s.setHandle h { s.handle h with incoming := some j }).liveImages := by
    simp only [State.liveImages, hh, hr]
    rfl
  obtain ⟨howned, hfits⟩ := hs.of_footprints (t := t) hf (by
    rw [hlive]
    refine hs.listed.map_setHandle _ ?_
    simp only [HandleRecord.images, hin, Option.toList_some, List.map_append, List.map_cons, hj]
    exact List.Perm.refl _)
  have hwf := hs.handlesWf_setHandle (r := { s.handle h with incoming := some j }) hlt
    ⟨(hs.imagesWf h).1, fun k hk => by cases hk; exact hw⟩
  refine ⟨hf ▸ hs.free, howned, hfits, ?_, ?_, hi, hm, hc⟩
  · unfold State.handlesWf at hwf ⊢
    rwa [hh]
  · have := hs.retired
    unfold State.retiredWf at this ⊢
    rwa [hr]

theorem State.PagesWf.fits_incoming {s : State} (hs : s.PagesWf) {h : Nat} {i : Image}
    (hin : (s.handle h).incoming = some i) : i.extentFits :=
  hs.extents i (hs.listed.mem_liveImages.mpr (Or.inl ⟨h, Or.inr hin⟩))

theorem Image.takesRequests_iff (i : Image) :
    i.takesRequests = true ↔ (∃ c w, i.phase = .loading c w) ∧ i.source = .requests := by
  obtain ⟨-, -, -, -, -, source, phase, -⟩ := i
  cases phase <;> cases source <;> simp [Image.takesRequests]

theorem Image.not_beingImported_of_requests {i : Image} (h : i.source = .requests) : ¬i.beingImported :=
  fun hb => by rw [hb.1] at h; cases h

theorem Image.not_beingImported_of_checked {i : Image} (h : i.checked = true) : ¬i.beingImported := by
  rintro ⟨-, c, w, hp⟩
  simp [Image.checked, hp] at h

theorem State.PagesWf.writes {s : State} (hs : s.PagesWf) {h k : Nat} {i : Image} (data : List Byte)
    (hin : (s.handle h).incoming = some i) (ht : i.takesRequests = true) (hk : k < i.pageCount) :
    (s.writeImagePage h i k data).PagesWf := by
  obtain ⟨⟨c, w, hp⟩, hsrc⟩ := i.takesRequests_iff.mp ht
  have hfit := hs.fits_incoming hin
  obtain ⟨hm, hc⟩ := hs.stored (page := i.firstPage + k) (by have := hfit.2.1; omega)
    (i.pageContents_length k data)
  rw [s.writeImagePage_loading h k data hp]
  refine hs.refilled (j := { i with phase := .loading c (insertIndex k w) }) hin rfl
    (Image.incomingWf_insertIndex ((hs.imagesWf h).2 i hin) hp hk) rfl rfl rfl hm hc ?_
  refine hs.importAgrees_setHandle (Or.inr ⟨fun j hj => ?_, fun j hj => ?_⟩)
  · rw [hin] at hj; cases hj; exact Image.not_beingImported_of_requests hsrc
  · cases hj; exact Image.not_beingImported_of_requests hsrc

theorem State.PagesWf.readies {s : State} (hs : s.PagesWf) {h : Nat} {i : Image}
    (hin : (s.handle h).incoming = some i) (ht : i.takesRequests = true) :
    (s.setHandle h { s.handle h with incoming := some (s.readied i) }).PagesWf := by
  obtain ⟨-, hsrc⟩ := i.takesRequests_iff.mp ht
  refine hs.refilled (j := s.readied i) hin rfl (Or.inr ⟨_, _, rfl⟩) rfl rfl rfl hs.memory hs.checkWords ?_
  refine hs.importAgrees_setHandle (Or.inr ⟨fun j hj => ?_, fun j hj => ?_⟩)
  · rw [hin] at hj; cases hj; exact Image.not_beingImported_of_requests hsrc
  · cases hj; exact Image.not_beingImported_of_requests hsrc

/-- R177: what the import in flight says of the incoming image of its handle. -/
theorem State.PagesWf.fills_of {s : State} (hs : s.PagesWf) {r : ImportRecord} {i : Image}
    (hrec : s.importer.record = some r) (hin : (s.handle r.handle).incoming = some i) : r.fills i := by
  obtain ⟨j, hj, hf⟩ := hs.fills hrec
  rw [hin] at hj
  cases hj
  exact hf

theorem State.PagesWf.importsPage {s : State} (hs : s.PagesWf) {r : ImportRecord} {i : Image}
    (data : List Byte) (hrec : s.importer.record = some r)
    (hin : (s.handle r.handle).incoming = some i) (hn : r.nextPage + 1 < r.pageCount) :
    ((s.writeImagePage r.handle i r.nextPage data).beginRead
      { r with nextPage := r.nextPage + 1 }).PagesWf := by
  obtain ⟨hsrc, ⟨c, hp⟩, hser, hlen, hcount, hlt⟩ := hs.fills_of hrec hin
  have hfit := hs.fits_incoming hin
  obtain ⟨hm, hc⟩ := hs.stored (page := i.firstPage + r.nextPage) (by have := hfit.2.1; omega)
    (i.pageContents_length r.nextPage data)
  rw [s.writeImagePage_loading r.handle r.nextPage data hp]
  refine hs.refilled (j := { i with phase := .loading c (insertIndex r.nextPage (List.range r.nextPage)) })
    hin rfl (Image.incomingWf_insertIndex ((hs.imagesWf _).2 i hin) hp (by omega)) rfl rfl rfl hm hc ?_
  refine hs.listed.importAgrees_written rfl rfl (fun p hp' => ?_) fun k j hj hb => ⟨_, rfl, ?_⟩
  · cases hp'
    refine ⟨_, congrArg HandleRecord.incoming (if_pos rfl), hsrc, ⟨c, ?_⟩, hser, hlen, hcount, hn⟩
    simp only
    rw [insertIndex_of_gt (fun j hj => List.mem_range.mp hj), List.range_succ]
  · split at hj
    · rename_i he; exact he.symm
    · obtain ⟨r', hr', he⟩ := hs.record hj hb
      rw [hrec] at hr'
      cases hr'
      exact he

theorem State.PagesWf.importsWhole {s : State} (hs : s.PagesWf) {r : ImportRecord} {i : Image}
    (data : List Byte) (hrec : s.importer.record = some r)
    (hin : (s.handle r.handle).incoming = some i) : (s.importedWhole r i data).PagesWf := by
  obtain ⟨hsrc, ⟨c, hp⟩, hser, hlen, hcount, hlt⟩ := hs.fills_of hrec hin
  have hfit := hs.fits_incoming hin
  obtain ⟨hm, hc⟩ := hs.stored (page := i.firstPage + r.nextPage) (by have := hfit.2.1; omega)
    (i.pageContents_length r.nextPage data)
  have hls : (s.storePage (i.firstPage + r.nextPage) (i.pageContents r.nextPage data)).listed := hs.listed
  simp only [State.importedWhole, s.writeImagePage_loading r.handle r.nextPage data hp]
  rw [hls.setHandle_setHandle, hls.handle_setHandle, if_pos rfl]
  refine hs.refilled (j := State.readied _ i) hin rfl (Or.inr ⟨_, _, rfl⟩) rfl rfl rfl hm hc ?_
  refine hs.listed.importAgrees_written rfl rfl (fun p hp' => ?_) fun k j hj hb => ?_
  · cases hp'
  split at hj
  · cases hj
    exact absurd hb (Image.not_beingImported_of_checked rfl)
  · rename_i hne
    obtain ⟨r', hr', he⟩ := hs.record hj hb
    rw [hrec] at hr'
    cases hr'
    exact absurd he.symm hne

/-! ### Images that leave their handles -/

theorem Image.ready_of_checked {i : Image} (hw : i.incomingWf) (hc : i.checked = true) :
    ∃ g c, i.phase = .ready g c := by
  rcases hw with ⟨c, w, hp, -⟩ | hr
  · simp [Image.checked, hp] at hc
  · exact hr

/-- The record that a handle is left with when its current image has gone is well formed. -/
theorem State.PagesWf.imagesWf_shifted {s : State} (hs : s.PagesWf) {h : Nat}
    (hin : ∀ i, (s.handle h).incoming = some i → i.checked = true) :
    HandleRecord.imagesWf ⟨(s.handle h).incoming, none⟩ :=
  ⟨fun i hi => Image.ready_of_checked ((hs.imagesWf h).2 i hi) (hin i hi), fun i hi => by cases hi⟩

/-- R26: no image that an import fills comes or goes when the incoming image is READY. -/
theorem State.PagesWf.importAgrees_shifted {s : State} (hs : s.PagesWf) {h : Nat}
    (hin : ∀ i, (s.handle h).incoming = some i → i.checked = true) (c : Option Image) :
    (s.setHandle h ⟨c, none⟩).importAgrees :=
  hs.importAgrees_setHandle (Or.inr
    ⟨fun i hi => Image.not_beingImported_of_checked (hin i hi), fun i hi => by cases hi⟩)

theorem State.PagesWf.binds {s : State} (hs : s.PagesWf) {h : Nat} {i : Image}
    (hcur : (s.handle h).current = none) (hin : (s.handle h).incoming = some i) (hi : i.checked = true) :
    (s.setHandle h ⟨some i, none⟩).PagesWf := by
  have hlt : h < 1024 := hs.handle_lt fun hn => by rw [hn] at hin; cases hin
  have hchk : ∀ j, (s.handle h).incoming = some j → j.checked = true := fun j hj => by
    rw [hin] at hj; cases hj; exact hi
  have hw := hs.imagesWf_shifted hchk
  rw [hin] at hw
  obtain ⟨howned, hfits⟩ := hs.of_footprints (t := s.setHandle h ⟨some i, none⟩) rfl
    (hs.listed.map_setHandle _ (by simp [HandleRecord.images, hin, hcur]))
  exact ⟨hs.free, howned, hfits, hs.handlesWf_setHandle hlt hw, hs.retired,
    hs.importAgrees_shifted hchk _, hs.memory, hs.checkWords⟩

theorem State.PagesWf.leaves {s : State} (hs : s.PagesWf) {h : Nat} {old : Image}
    (hcur : (s.handle h).current = some old)
    (hin : ∀ i, (s.handle h).incoming = some i → i.checked = true) (hm : s.mayLeave old = none) :
    ((s.setHandle h ⟨(s.handle h).incoming, none⟩).dispose h old).2.PagesWf := by
  have hlt : h < 1024 := hs.handle_lt fun hn => by rw [hn] at hcur; cases hcur
  have hbefore : (s.liveImages.map Image.footprint).Perm (old.footprint ::
      (s.setHandle h ⟨(s.handle h).incoming, none⟩).liveImages.map Image.footprint) := by
    refine ((s.liveImages_perm h).map _).trans (List.Perm.trans ?_
      (((hs.listed.liveImages_setHandle h ⟨(s.handle h).incoming, none⟩).symm.map Image.footprint).cons _))
    simp [HandleRecord.images, hcur]
  have hwf := hs.handlesWf_setHandle hlt (hs.imagesWf_shifted hin)
  have hagree := hs.importAgrees_shifted hin (s.handle h).incoming
  by_cases h0 : old.refs = 0
  · rw [State.dispose, if_pos h0]
    obtain ⟨hfree, howned, hfits⟩ := hs.of_returned (i := old)
      (t := ((s.setHandle h ⟨(s.handle h).incoming, none⟩).returnPages old).notify
        (.freed old.serial h old.pageCount)) rfl hbefore
    exact ⟨hfree, howned, hfits, hwf, hs.retired, hagree, hs.memory, hs.checkWords⟩
  · rw [State.dispose, if_neg h0]
    obtain ⟨g, c, hp⟩ := (hs.imagesWf h).1 old hcur
    have hold : old.asRetired = { old with phase := .retired g c } := by simp only [Image.asRetired, hp]
    have hroom : s.retired.length < Config.retiredPlaces := by
      unfold State.mayLeave at hm
      split at hm
      · cases hm
      · split at hm
        · cases hm
        · omega
    obtain ⟨howned, hfits⟩ := hs.of_footprints (t := { s.setHandle h ⟨(s.handle h).incoming, none⟩ with
      retired := s.retired ++ [⟨h, old.asRetired⟩] }) rfl (by
        refine List.Perm.trans ?_ hbefore.symm
        simp only [State.liveImages, State.setHandle_retired, hold, List.map_append, List.map_cons,
          List.map_nil, ← List.append_assoc]
        exact List.perm_append_singleton _ _)
    refine ⟨hs.free, howned, hfits, hwf, ⟨?_, fun e he => ?_⟩, hagree, hs.memory, hs.checkWords⟩
    · simp only [State.setHandle_retired, List.length_append, List.length_singleton]
      exact hroom
    · rcases List.mem_append.mp he with he | he
      · exact hs.retired.2 e he
      · rw [List.mem_singleton.mp he, hold]
        exact ⟨g, c, rfl⟩

/-! ### Incoming images discarded -/

/-- R7, R29: an incoming image is discarded; the import in flight afterwards is said apart. -/
theorem State.PagesWf.discarded {s : State} (hs : s.PagesWf) (h : Nat) {t : State}
    (hh : t.handles = s.handles) (hr : t.retired = s.retired) (hf : t.free = s.free)
    (hm : t.memory = s.memory) (hc : t.checkWords = s.checkWords)
    (hi : (t.discardIncoming h).importAgrees) : (t.discardIncoming h).PagesWf := by
  have hk : t.handle h = s.handle h := by simp only [State.handle, hh]
  cases hin : (s.handle h).incoming with
  | none =>
    have he : t.discardIncoming h = t := by simp only [State.discardIncoming, hk, hin]
    rw [he] at hi ⊢
    obtain ⟨howned, hfits⟩ := hs.of_footprints (t := t) hf (by rw [State.liveImages, hh, hr]; exact .refl _)
    refine ⟨hf ▸ hs.free, howned, hfits, ?_, ?_, hi, hm ▸ hs.memory, hc ▸ hs.checkWords⟩
    · unfold State.handlesWf; rw [hh]; exact hs.handles
    · unfold State.retiredWf; rw [hr]; exact hs.retired
  | some i =>
    have hlt : h < 1024 := hs.handle_lt fun hn => by rw [hn] at hin; cases hin
    have he : t.discardIncoming h =
        (t.setHandle h { s.handle h with incoming := none }).returnPages i := by
      simp only [State.discardIncoming, hk, hin]
    rw [he] at hi ⊢
    have hlive : ((t.setHandle h { s.handle h with incoming := none }).returnPages i).liveImages =
        (s.setHandle h { s.handle h with incoming := none }).liveImages := by
      simp [State.liveImages, State.setHandle, State.returnPages, hh, hr]
    have hperm : (s.liveImages.map Image.footprint).Perm (i.footprint ::
        (s.setHandle h { s.handle h with incoming := none }).liveImages.map Image.footprint) := by
      refine ((s.liveImages_perm h).map _).trans (List.Perm.trans ?_
        (((hs.listed.liveImages_setHandle h { s.handle h with incoming := none }).symm.map
          Image.footprint).cons _))
      simp only [HandleRecord.images, hin, Option.toList_some, Option.toList_none, List.append_nil,
        List.map_append, List.map_cons, List.append_assoc, List.singleton_append]
      exact List.perm_middle
    obtain ⟨hfree, howned, hfits⟩ := hs.of_returned (i := i)
      (t := (t.setHandle h { s.handle h with incoming := none }).returnPages i)
      (by simp [State.returnPages, State.setHandle, hf, Image.extent]) (hlive ▸ hperm)
    have hwf := hs.handlesWf_setHandle (r := { s.handle h with incoming := none }) hlt
      ⟨(hs.imagesWf h).1, fun j hj => by cases hj⟩
    refine ⟨hfree, howned, hfits, ?_, ?_, hi, ?_, ?_⟩
    · unfold State.handlesWf State.returnPages State.setHandle
      rw [hh]
      exact hwf
    · unfold State.retiredWf State.returnPages State.setHandle
      rw [hr]
      exact hs.retired
    · change Memory.wf t.memory = true
      rw [hm]; exact hs.memory
    · change Sparse.rising t.checkWords = true ∧ ∀ e ∈ t.checkWords, e.1 < Config.pages
      rw [hc]; exact hs.checkWords

/-- What every handle holds after its incoming image was discarded. -/
theorem State.listed.handle_discardIncoming {s : State} (hl : s.listed) (h : Nat) :
    (s.discardIncoming h).listed ∧ ∀ k, (s.discardIncoming h).handle k =
      if k = h then { s.handle h with incoming := none } else s.handle k := by
  unfold State.discardIncoming
  split
  · rename_i hn
    refine ⟨hl, fun k => ?_⟩
    split
    · rename_i he
      rw [he, ← hn]
    · rfl
  · exact ⟨hl.setHandle h _, fun k => hl.handle_setHandle h k _⟩

@[simp] theorem State.discardIncoming_importer (s : State) (h : Nat) :
    (s.discardIncoming h).importer = s.importer := by
  unfold State.discardIncoming
  split <;> rfl

theorem State.importFills_eq_false {s : State} {h : Nat} (hf : s.importFills h = false) :
    ∀ r, s.importer.record = some r → r.handle ≠ h := by
  intro r hr he
  simp [State.importFills, hr, he] at hf

theorem State.PagesWf.discards {s : State} (hs : s.PagesWf) {h : Nat} (hf : s.importFills h = false) :
    (s.discardIncoming h).PagesWf := by
  refine hs.discarded h rfl rfl rfl rfl rfl ?_
  obtain ⟨hl, hk⟩ := hs.listed.handle_discardIncoming h
  refine hs.importAgrees_of hl (by simp) (by simp) fun k => ?_
  rw [hk]
  split
  · rename_i he
    subst he
    exact Or.inr ⟨State.importFills_eq_false hf, fun i hi => by cases hi⟩
  · exact Or.inl rfl

theorem State.PagesWf.cancels {s : State} (hs : s.PagesWf) (cause : CancelCause) :
    (s.cancelImport cause).PagesWf := by
  unfold State.cancelImport
  split
  · exact hs
  · rename_i r hr
    refine hs.discarded r.handle rfl rfl rfl rfl rfl ?_
    obtain ⟨hl, hk⟩ := State.listed.handle_discardIncoming (s := { s with
      importer := { s.importer with record := none, reading := none } }.notify
        (.importEnd r.handle r.serial (.cancelled r.nextPage cause))) hs.listed r.handle
    rw [hl.importAgrees_iff, State.discardIncoming_importer]
    refine ⟨rfl, fun p hp => (by cases hp), fun k i hi hb => ?_⟩
    rw [hk] at hi
    split at hi
    · cases hi
    · rename_i hne
      obtain ⟨p, hp, he⟩ := hs.record hi hb
      rw [hr] at hp
      cases hp
      exact absurd he.symm hne

/-! ### Changes of every image record -/

/-- A phase of the same kind, a LOADING one with the same written-page set. -/
def ImagePhase.alike : ImagePhase → ImagePhase → Prop
  | .loading c w, q => q = .loading c w
  | .ready _ _, q => ∃ g c, q = .ready g c
  | .retired _ _, q => ∃ g c, q = .retired g c

/-- A change of image records that leaves alone what the invariant of pages is about. -/
def Image.keeps (f : Image → Image) : Prop :=
  ∀ i, (f i).footprint = i.footprint ∧ (f i).serial = i.serial ∧ (f i).source = i.source ∧
    i.phase.alike (f i).phase

theorem Image.keeps.pageCount {f : Image → Image} (hf : Image.keeps f) (i : Image) :
    (f i).pageCount = i.pageCount :=
  (Extent.mk.inj (Prod.mk.inj (hf i).1).1).2

theorem Image.keeps.ready {f : Image → Image} (hf : Image.keeps f) {i : Image}
    (hi : ∃ g c, i.phase = .ready g c) : ∃ g c, (f i).phase = .ready g c := by
  obtain ⟨g, c, hp⟩ := hi
  have := (hf i).2.2.2
  rwa [hp] at this

theorem Image.keeps.retired {f : Image → Image} (hf : Image.keeps f) {i : Image}
    (hi : ∃ g c, i.phase = .retired g c) : ∃ g c, (f i).phase = .retired g c := by
  obtain ⟨g, c, hp⟩ := hi
  have := (hf i).2.2.2
  rwa [hp] at this

theorem Image.keeps.loading {f : Image → Image} (hf : Image.keeps f) {i : Image} {c : Bool} {w : List Nat} :
    (f i).phase = .loading c w ↔ i.phase = .loading c w := by
  have h := (hf i).2.2.2
  cases hp : i.phase with
  | loading c' w' =>
    rw [hp] at h
    rw [show (f i).phase = .loading c' w' from h]
  | ready g x =>
    rw [hp] at h
    obtain ⟨g', x', h⟩ := h
    rw [h]
    simp
  | retired g x =>
    rw [hp] at h
    obtain ⟨g', x', h⟩ := h
    rw [h]
    simp

theorem Image.keeps.incomingWf {f : Image → Image} (hf : Image.keeps f) {i : Image} (hi : i.incomingWf) :
    (f i).incomingWf := by
  rcases hi with ⟨c, w, hp, hw, hb⟩ | hr
  · exact Or.inl ⟨c, w, hf.loading.mpr hp, hw, fun k hk => by rw [hf.pageCount]; exact hb k hk⟩
  · exact Or.inr (hf.ready hr)

theorem Image.keeps.fills {f : Image → Image} (hf : Image.keeps f) {r : ImportRecord} {i : Image}
    (hi : r.fills i) : r.fills (f i) := by
  obtain ⟨hsrc, ⟨c, hp⟩, hser, hlen, hcount, hlt⟩ := hi
  refine ⟨(hf i).2.2.1.trans hsrc, ⟨c, hf.loading.mpr hp⟩, (hf i).2.1.trans hser, ?_,
    (hf.pageCount i).trans hcount, hlt⟩
  exact (Prod.mk.inj (hf i).1).2.trans hlen

theorem State.PagesWf.mapImages {s : State} (hs : s.PagesWf) {f : Image → Image} (hf : Image.keeps f) :
    (s.mapImages f).PagesWf := by
  have hl := hs.listed.mapImages f
  obtain ⟨howned, hfits⟩ := hs.of_footprints (t := s.mapImages f) rfl (by
    rw [State.liveImages_mapImages, List.map_map]
    exact (List.map_congr_left fun i _ => (hf i).1).symm ▸ List.Perm.refl _)
  refine ⟨hs.free, howned, hfits, (State.handlesWf_iff _).mpr ⟨hl, fun h hn => ?_, fun h => ?_⟩,
    ⟨?_, fun e he => ?_⟩, hl.importAgrees_iff.mpr ⟨hs.importer.1, fun r hr => ?_, fun h i hi hb => ?_⟩,
    hs.memory, hs.checkWords⟩
  · refine hs.handle_lt fun he => hn ?_
    rw [State.handle_mapImages, he]
    rfl
  · rw [State.handle_mapImages]
    refine ⟨fun i hi => ?_, fun i hi => ?_⟩
    · obtain ⟨j, hj, rfl⟩ := Option.map_eq_some_iff.mp hi
      exact hf.ready ((hs.imagesWf h).1 j hj)
    · obtain ⟨j, hj, rfl⟩ := Option.map_eq_some_iff.mp hi
      exact hf.incomingWf ((hs.imagesWf h).2 j hj)
  · simpa [State.mapImages] using hs.retired.1
  · obtain ⟨e', he', rfl⟩ := List.mem_map.mp he
    exact hf.retired (hs.retired.2 e' he')
  · obtain ⟨i, hi, hfi⟩ := hs.fills hr
    exact ⟨f i, by rw [State.handle_mapImages, hi]; rfl, hf.fills hfi⟩
  · rw [State.handle_mapImages] at hi
    obtain ⟨j, hj, rfl⟩ := Option.map_eq_some_iff.mp hi
    obtain ⟨hsrc, c, w, hp⟩ := hb
    exact hs.record hj ⟨(hf j).2.2.1.symm.trans hsrc, c, w, hf.loading.mp hp⟩

theorem Image.keeps_marked (ident page : Nat) : Image.keeps (Image.marked ident page) := by
  intro i
  unfold Image.marked
  cases hp : i.phase <;> split <;> simp [hp, ImagePhase.alike, Image.footprint, Image.extent]

theorem Image.keeps_released (serial : Nat) : Image.keeps (Image.released serial) := by
  intro i
  unfold Image.released
  cases hp : i.phase <;> split <;> simp [hp, ImagePhase.alike, Image.footprint, Image.extent]

/-! ### Every change keeps the invariant -/

theorem State.PagesWf.decays {s : State} (hs : s.PagesWf) {page : Nat} {data : List Byte}
    (hp : page < Config.pages) (hd : data.length = 512) :
    ({ s with memory := Memory.write s.memory (512 * page) data } : State).PagesWf :=
  ⟨hs.free, hs.owned, hs.extents, hs.handles, hs.retired, hs.importer,
    Memory.wf_write _ _ _ hs.memory (by rw [hd]; simp only [Config.pages] at hp; omega), hs.checkWords⟩

/-- R13, R14: no change of the images, their pages or the import breaks the invariant of pages. -/
theorem State.PagesWf.imageStep {s u : State} (hs : s.PagesWf) (h : ImageStep s u) : u.PagesWf := by
  cases h with
  | none => exact hs
  | creates hh hn hin hc => exact hs.creates hh hn hin hc
  | imports hh hn hrec hin hc => exact hs.imports hh hn hrec hin hc
  | writes data hin ht hk => exact hs.writes data hin ht hk
  | importsPage data hrec hin hn => exact hs.importsPage data hrec hin hn
  | importsWhole data hrec hin => exact hs.importsWhole data hrec hin
  | readies hin ht => exact hs.readies hin ht
  | binds hcur hin hi => exact hs.binds hcur hin hi
  | leaves hcur hin hm => exact hs.leaves hcur hin hm
  | discards hf => exact hs.discards hf
  | cancels cause => exact hs.cancels cause
  | marks ident page => exact hs.mapImages (Image.keeps_marked ident page)
  | decays hp hd => exact hs.decays hp hd

/-! ### References and resets -/

/-- R34: a PLAY step's reference changes no image but in its count. -/
theorem State.PagesWf.takeReference {s : State} (hs : s.PagesWf) {h : Nat} {i : Image}
    (hcur : (s.handle h).current = some i) : (s.takeReference h i).PagesWf := by
  have hlt : h < 1024 := hs.handle_lt fun hn => by rw [hn] at hcur; cases hcur
  obtain ⟨howned, hfits⟩ := hs.of_footprints (t := s.takeReference h i) rfl
    (hs.listed.map_setHandle _ (by
      simp [HandleRecord.images, hcur, Image.footprint, Image.extent]))
  refine ⟨hs.free, howned, hfits, hs.handlesWf_setHandle hlt ⟨fun j hj => ?_, (hs.imagesWf h).2⟩,
    hs.retired, hs.importAgrees_setHandle (Or.inl rfl), hs.memory, hs.checkWords⟩
  cases hj
  exact (hs.imagesWf h).1 i hcur

/-- R35: a released reference, and the RETIRED image that it may end. -/
theorem State.PagesWf.release {s : State} (hs : s.PagesWf) (serial : Nat) : (s.release serial).PagesWf := by
  have hm := hs.mapImages (Image.keeps_released serial)
  unfold State.release
  simp only
  split
  · exact hm
  · rename_i e he
    have hmem := List.mem_of_find?_eq_some he
    obtain ⟨hfree, howned, hfits⟩ := hm.of_returned (i := e.image)
      (t := ({ s.mapImages (Image.released serial) with
        retired := (s.mapImages (Image.released serial)).retired.erase e }.returnPages e.image).notify
          (.freed serial e.origin e.image.pageCount)) rfl (by
        refine ((List.Perm.append_left _ ((List.perm_cons_erase hmem).map RetiredEntry.image)).map
          Image.footprint).trans ?_
        simp only [State.liveImages, List.map_append, List.map_cons]
        exact List.perm_middle)
    exact ⟨hfree, howned, hfits, hm.handles,
      ⟨Nat.le_trans (List.length_erase_le ..) hm.retired.1, fun x hx => hm.retired.2 x (List.mem_of_mem_erase hx)⟩,
      hm.importer, hm.memory, hm.checkWords⟩

/-- A state with no image, every page free and no import in flight meets the invariant of pages. -/
theorem State.PagesWf.of_empty {t : State} (hh : t.handles = []) (hr : t.retired = [])
    (hf : t.free = [⟨0, 32768⟩]) (hrec : t.importer.record = none) (hread : t.importer.reading = none)
    (hm : Memory.wf t.memory = true)
    (hc : Sparse.rising t.checkWords = true ∧ ∀ e ∈ t.checkWords, e.1 < Config.pages) : t.PagesWf := by
  have hlive : t.liveImages = [] := by simp [State.liveImages, hh, hr]
  have hl : t.listed := by unfold State.listed; rw [hh]; rfl
  have hk : ∀ h, t.handle h = HandleRecord.empty := fun h => by
    unfold State.handle; rw [hh]; rfl
  refine ⟨by rw [hf]; rfl, fun page hp => ?_, fun i hi => ?_,
    (State.handlesWf_iff t).mpr ⟨hl, fun h hn => absurd (hk h) hn, fun h => ?_⟩, ?_,
    hl.importAgrees_iff.mpr ⟨by rw [hrec, hread]; rfl, fun r hr => ?_, fun h i hi => ?_⟩, hm, hc⟩
  · rw [State.owners_eq, hlive, hf, List.map_nil, holders_nil, holders_cons, if_pos, holders_nil]
    exact (Extent.holds_iff _ _).mpr ⟨Nat.zero_le _, by simpa [Config.pages] using hp⟩
  · rw [hlive] at hi; cases hi
  · rw [hk]; exact ⟨fun i hi => (by cases hi), fun i hi => (by cases hi)⟩
  · unfold State.retiredWf
    rw [hr]
    exact ⟨Nat.zero_le _, fun e he => (by cases he)⟩
  · rw [hrec] at hr; cases hr
  · rw [hk] at hi; cases hi

end Sys2Proof.Machine
end

section
/-!
What the part can do to images and to the channels' references, as one relation (`State.Moves`): a chain of
image steps, references begun and ended, and resets. Here what it is, and which shared operations are no move.
-/
namespace Sys2Proof.Machine

/-! ### What a channel holds of an image -/

/-- R88: what a play record says of the image it plays. -/
structure Claim where
  serial : Nat
  firstPage : Nat
  pageCount : Nat
  sampleLength : Nat
  deriving DecidableEq

def PlayRecord.claim (p : PlayRecord) : Claim := ⟨p.serial, p.firstPage, p.pageCount, p.sampleLength⟩

def Image.claim (i : Image) : Claim := ⟨i.serial, i.firstPage, i.pageCount, i.sampleLength⟩

/-- R79, R88: whether a channel is in its program, and what it holds. -/
structure Seat where
  inProgram : Bool
  claim : Option Claim
  deriving DecidableEq

def Engine.seat (e : Engine) : Seat := ⟨e.run.inProgram, e.activity.playRecord?.map PlayRecord.claim⟩

def State.seat (s : State) (c : Chan) : Seat := (s.engine c).seat

/-- The images, their pages and the import, and the seat of every channel. -/
def State.shown (s : State) : State × (Chan → Seat) := (s.pages, s.seat)

theorem State.shown_eq_iff {s t : State} :
    t.shown = s.shown ↔ t.pages = s.pages ∧ ∀ c, t.seat c = s.seat c := by
  simp only [State.shown, Prod.mk.injEq, funext_iff]

theorem State.seat_of_shown {s t : State} (h : t.shown = s.shown) (c : Chan) : t.seat c = s.seat c :=
  (State.shown_eq_iff.mp h).2 c

/-- A channel keeps what it holds and stays in its program, or ends with no claim where it had none or was
outside its program. -/
def Seat.quiet (x y : Seat) : Prop :=
  (y.claim = x.claim ∧ (x.inProgram = true → y.inProgram = true)) ∨
    (y.claim = none ∧ (x.claim = none ∨ x.inProgram = false))

theorem Seat.quiet_refl (x : Seat) : x.quiet x := Or.inl ⟨rfl, id⟩

/-! ### Moves -/

/-- One move: an image step, a reference ended or begun, or a reset. -/
inductive PageMove (s t : State) : Prop
  | images (u : State) (h : ImageStep s u) (hp : t.pages = u.pages)
      (hq : ∀ c, (s.seat c).quiet (t.seat c))
  /-- R35: a channel's reference ends -/
  | ends (c : Chan) (q : Claim) (hc : (s.seat c).claim = some q)
      (hp : t.pages = (s.release q.serial).pages) (ht : (t.seat c).claim = none)
      (ho : ∀ d, d ≠ c → t.seat d = s.seat d)
  /-- R34: a channel's reference begins -/
  | begins (c : Chan) (h : Nat) (i : Image) (hcur : (s.handle h).current = some i)
      (hc : (s.seat c).claim = none) (hp : t.pages = (s.takeReference h i).pages)
      (ht : t.seat c = ⟨true, some i.claim⟩) (ho : ∀ d, d ≠ c → t.seat d = s.seat d)
  /-- R215: the images go, and the memory and the check store stay or go with them -/
  | resets (m : Memory) (w : Sparse Half)
      (hm : (m = s.memory ∧ w = s.checkWords) ∨ (m = [] ∧ w = []))
      (hp : t.pages =
        State.pages { State.reset with imagesMade := s.imagesMade, memory := m, checkWords := w })
      (ht : ∀ c, t.seat c = ⟨false, none⟩)

/-- A chain of moves. -/
def State.Moves (s t : State) : Prop := Relation.ReflTransGen PageMove s t

theorem State.Moves.refl (s : State) : s.Moves s := Relation.ReflTransGen.refl

theorem State.Moves.trans {s t u : State} (h : s.Moves t) (k : t.Moves u) : s.Moves u :=
  Relation.ReflTransGen.trans h k

theorem State.Moves.one {s t : State} (h : PageMove s t) : s.Moves t := Relation.ReflTransGen.single h

/-- A change of the channels alone. -/
theorem State.Moves.quiet {s t : State} (hp : t.pages = s.pages)
    (hq : ∀ c, (s.seat c).quiet (t.seat c)) : s.Moves t :=
  .one (.images s .none hp hq)

theorem State.Moves.of_shown {s t : State} (h : t.shown = s.shown) : s.Moves t := by
  obtain ⟨hp, hc⟩ := State.shown_eq_iff.mp h
  exact .quiet hp fun c => by rw [hc]; exact Seat.quiet_refl _

theorem State.Moves.then {s t u : State} (h : s.Moves t) (k : u.shown = t.shown) : s.Moves u :=
  h.trans (.of_shown k)

theorem State.Moves.after {s t u : State} (h : t.shown = s.shown) (k : t.Moves u) : s.Moves u :=
  (State.Moves.of_shown h).trans k

/-- An image step. -/
theorem State.Moves.image {s t : State} (h : ImageStep s t) (hc : ∀ c, t.engine c = s.engine c) :
    s.Moves t :=
  .one (.images t h rfl fun c => by
    simp only [State.seat, hc]
    exact Seat.quiet_refl _)

/-! ### The seats after a write of an engine -/

theorem State.seat_setEngine (s : State) (c d : Chan) (e : Engine) :
    (s.setEngine c e).seat d = if d = c then e.seat else s.seat d := by
  unfold State.seat
  split
  · rename_i h; rw [h, State.engine_setEngine_self]
  · rename_i h
    rw [State.engine, State.chan_setEngine_ne s fun e => h e.symm]
    rfl

theorem State.shown_setEngine {s : State} {c : Chan} {e : Engine} (h : e.seat = s.seat c) :
    (s.setEngine c e).shown = s.shown := by
  refine State.shown_eq_iff.mpr ⟨rfl, fun d => ?_⟩
  rw [State.seat_setEngine]
  split
  · rename_i hd; rw [hd, h]
  · rfl

theorem State.Moves.setEngine {s : State} {c : Chan} {e : Engine} (h : (s.seat c).quiet e.seat) :
    s.Moves (s.setEngine c e) := by
  refine .quiet rfl fun d => ?_
  rw [State.seat_setEngine]
  split
  · rename_i hd; rw [hd]; exact h
  · exact Seat.quiet_refl _

/-! ### What shows nothing -/

theorem State.shown_of_chan {s t : State} (hp : t.pages = s.pages)
    (hc : ∀ c, t.engine c = s.engine c) : t.shown = s.shown :=
  State.shown_eq_iff.mpr ⟨hp, fun c => by rw [State.seat, hc]; rfl⟩

@[simp] theorem State.shown_setTimer (s : State) (c : Chan) (t : Timer) :
    (s.setTimer c t).shown = s.shown := State.shown_of_chan rfl fun d => by simp

@[simp] theorem State.shown_setLatches (s : State) (c : Chan) (l : Latches) :
    (s.setLatches c l).shown = s.shown := State.shown_of_chan rfl fun d => by simp

@[simp] theorem State.shown_setRate (s : State) (c : Chan) (r : Rate) :
    (s.setRate c r).shown = s.shown := State.shown_of_chan rfl fun d => by simp

@[simp] theorem State.shown_setOutput (s : State) (c : Chan) (o : Output) :
    (s.setOutput c o).shown = s.shown := State.shown_of_chan rfl fun d => by simp

@[simp] theorem State.shown_hand (s : State) (e : Instr) : (s.hand e).shown = s.shown := rfl

@[simp] theorem State.shown_taken (s : State) (e : Instr) : (s.taken e).shown = s.shown := rfl

@[simp] theorem State.shown_withdraw (s : State) (es : List Instr) : (s.withdraw es).shown = s.shown := rfl

@[simp] theorem State.shown_notify (s : State) (n : Notice) : (s.notify n).shown = s.shown := rfl

@[simp] theorem State.shown_transmit (s : State) : s.transmit.shown = s.shown := rfl

@[simp] theorem State.shown_setScanner (s : State) (x : Scanner) : (s.setScanner x).shown = s.shown := rfl

/-- Actions in turn that show nothing. -/
theorem State.shown_foldl {α : Type} (f : State → α → State) (hf : ∀ u a, (f u a).shown = u.shown) :
    ∀ (l : List α) (s : State), (l.foldl f s).shown = s.shown := by
  intro l
  induction l with
  | nil => intro s; rfl
  | cons a l ih => intro s; rw [List.foldl_cons, ih, hf]

/-- Actions in turn, each a chain of moves. -/
theorem State.Moves.foldl {α : Type} (f : State → α → State) (hf : ∀ (u : State) a, u.Moves (f u a)) :
    ∀ (l : List α) (s : State), s.Moves (l.foldl f s) := by
  intro l
  induction l with
  | nil => intro s; exact .refl s
  | cons a l ih => intro s; exact (hf s a).trans (ih _)

theorem State.shown_consume (s : State) (c : Chan) (o : Operand) : (s.consume c o).shown = s.shown := by
  cases o <;> simp [State.consume]

@[simp] theorem State.shown_test (s : State) (c : Chan) (q : Condition) :
    (s.test c q).2.shown = s.shown := by
  unfold State.test
  split
  · rfl
  · split
    · exact s.shown_consume c _
    · rfl

@[simp] theorem State.shown_handChanges (s : State) (f : Chan → Operand → Bool) :
    (s.handChanges f).shown = s.shown := by
  rw [State.handChanges_eq]
  rfl

@[simp] theorem State.shown_writeFlags (s : State) (flags : BitVec 8) :
    (s.writeFlags flags).shown = s.shown := by
  unfold State.writeFlags
  exact State.shown_handChanges _ _

@[simp] theorem State.shown_expireTimer (s : State) (c : Chan) : (s.expireTimer c).shown = s.shown := by
  unfold State.expireTimer
  simp only
  split
  · split
    · rw [State.shown_hand]; split <;> simp
    · split <;> simp
  · split <;> simp

@[simp] theorem State.shown_tapTimer (s : State) (c : Chan) (tap : Fin 8) :
    (s.tapTimer c tap).shown = s.shown := by
  unfold State.tapTimer
  simp only
  split
  · split <;> simp
  · rfl

@[simp] theorem State.shown_setLoops (s : State) (c : Chan) (l : List LoopRecord) :
    (s.setLoops c l).shown = s.shown := State.shown_setEngine rfl

@[simp] theorem State.shown_goTo (s : State) (c : Chan) (k : Nat) : (s.goTo c k).shown = s.shown :=
  State.shown_setEngine rfl

@[simp] theorem State.shown_countStep (s : State) (c : Chan) : (s.countStep c).shown = s.shown :=
  State.shown_setEngine rfl

@[simp] theorem State.shown_restOutput (s : State) (c : Chan) : (s.restOutput c).shown = s.shown :=
  s.shown_setOutput c _

@[simp] theorem State.shown_markOutput (s : State) (c : Chan) (a b : MarkerAction) :
    (s.markOutput c a b).shown = s.shown := s.shown_setOutput c _

@[simp] theorem State.shown_carryRest (s : State) (c : Chan) : (s.carryRest c).shown = s.shown :=
  s.shown_setOutput c _

@[simp] theorem State.shown_carryCode (s : State) (c : Chan) (code : Half) :
    (s.carryCode c code).shown = s.shown := by
  unfold State.carryCode
  simp only
  rw [State.shown_setEngine, State.shown_setOutput]
  simp [State.seat, Engine.seat]

@[simp] theorem State.shown_deliverSample (s : State) (c : Chan) (scale : Option Half) (x : Half) :
    (s.deliverSample c scale x).shown = s.shown := by
  unfold State.deliverSample
  simp only
  rw [State.shown_setEngine, State.shown_setOutput]
  simp [State.seat, Engine.seat]

@[simp] theorem State.shown_loadTimer (s : State) (c : Chan) (k : Nat) (tap : Fin 8) :
    (s.loadTimer c k tap).shown = s.shown := s.shown_setTimer c _

@[simp] theorem State.shown_haltTimer (s : State) (c : Chan) : (s.haltTimer c).shown = s.shown :=
  s.shown_setTimer c _

/-! ### The walk and the clock -/

@[simp] theorem State.shown_visitPages : ∀ (n : Nat) (s : State), (s.visitPages n).shown = s.shown := by
  intro n
  induction n with
  | zero => intro s; rfl
  | succ n ih =>
    intro s
    unfold State.visitPages
    split
    · rfl
    · rw [ih, State.shown_setScanner]

@[simp] theorem State.shown_walkTick (s : State) : s.walkTick.shown = s.shown := by
  unfold State.walkTick
  split
  · split
    · rfl
    · split
      · rw [State.beginBlock, State.shown_visitPages, State.shown_setScanner]
      · rfl
  · rfl

@[simp] theorem State.shown_endVisit (s : State) : s.endVisit.shown = s.shown := by
  unfold State.endVisit
  simp only
  split
  · rw [State.shown_visitPages, State.shown_setScanner]
  · rfl

@[simp] theorem State.shown_resumeWalk (s : State) : s.resumeWalk.shown = s.shown := by
  unfold State.resumeWalk
  simp only
  split
  · rw [State.shown_visitPages, State.shown_setScanner]
  · rfl

theorem State.shown_eachChannel (f : Chan → State → State) (hf : ∀ c u, (f c u).shown = u.shown)
    (s : State) : (s.eachChannel f).shown = s.shown :=
  State.shown_foldl (fun u c => f c u) (fun u c => hf c u) allChannels s

@[simp] theorem State.shown_tap (s : State) (k : Fin 7) : (s.tap k).shown = s.shown := by
  unfold State.tap
  simp only
  split
  · rw [State.shown_walkTick]; exact State.shown_eachChannel _ (fun c u => u.shown_tapTimer c _) s
  · exact State.shown_eachChannel _ (fun c u => u.shown_tapTimer c _) s

@[simp] theorem State.shown_tapEvent (s : State) (k : Fin 7) : (s.tapEvent k).shown = s.shown := by
  unfold State.tapEvent
  split
  · split
    · rw [State.shown_tap, State.shown_taken]
    · rw [State.shown_tap]; rfl
  · rfl

@[simp] theorem State.shown_tick (s : State) : s.tick.shown = s.shown := by
  have ht : s.tickTimeout.shown = s.shown := by
    unfold State.tickTimeout
    split
    · simp only
      split <;> rfl
    · rfl
    · rfl
  have hp : ∀ (c : Chan) (u : State), (u.tickPhase c).shown = u.shown := fun c u => by
    unfold State.tickPhase
    simp only
    split <;> simp
  have hc : ∀ u : State, u.tickChain.shown = u.shown := fun u => rfl
  unfold State.tick
  split
  · rfl
  · simp only
    split
    · exact ht
    · rw [hc, State.shown_eachChannel _ hp, ht]

/-! ### Triggers -/

@[simp] theorem State.shown_triggerArrival (s : State) (n : Fin 4) : (s.triggerArrival n).shown = s.shown := by
  unfold State.triggerArrival
  simp only
  rw [State.shown_handChanges]
  refine State.shown_eachChannel _ (fun c u => ?_) s
  split <;> simp

@[simp] theorem State.shown_softwareTrigger (s : State) (m : Byte) :
    (s.softwareTrigger m).shown = s.shown := by
  unfold State.softwareTrigger
  simp only
  rw [State.shown_handChanges]
  refine State.shown_eachChannel _ (fun c u => ?_) s
  split <;> simp

/-! ### The link -/

@[simp] theorem State.shown_setReceive (s : State) (r : Receive) : (s.setReceive r).shown = s.shown := rfl

@[simp] theorem State.shown_failFrame (s : State) (st : Status) (tag : Byte) :
    (s.failFrame st tag).shown = s.shown := by
  unfold State.failFrame
  split <;> rfl

@[simp] theorem State.shown_arrive (s : State) (f : Frame) : (s.arrive f).shown = s.shown := by
  unfold State.arrive
  split <;> rfl

@[simp] theorem State.shown_receiveByte (s : State) (b : Byte) : (s.receiveByte b).shown = s.shown := by
  unfold State.receiveByte
  split
  · split <;> rfl
  · unfold State.takeHeader
    split
    · simp only
      split
      · rw [State.shown_setReceive, State.shown_failFrame]
      · split <;> rfl
    · rfl
  · split <;> rfl
  · rfl
  · unfold State.checkFrame
    simp only
    split <;> simp
  · rfl

@[simp] theorem State.shown_discardPartial (s : State) (r : Receive) :
    (s.discardPartial r).shown = s.shown := by
  unfold State.discardPartial
  rw [State.shown_setReceive]
  split <;> simp

@[simp] theorem State.shown_framingError (s : State) : s.framingError.shown = s.shown := by
  unfold State.framingError
  split <;> simp

@[simp] theorem State.shown_linkGap (s : State) : s.linkGap.shown = s.shown := by
  unfold State.linkGap
  split <;> simp

/-! ### The references of a channel that ends, faults or goes on -/

theorem State.seat_release (s : State) (n : Nat) (c : Chan) : (s.release n).seat c = s.seat c := by
  simp only [State.seat, State.engine, State.chan_release]

/-- What a channel holds, it holds as a play record. -/
theorem State.claim_eq_none {s : State} {c : Chan} : (s.seat c).claim = none ↔ s.playOf c = none := by
  simp [State.seat, Engine.seat, State.playOf]

theorem State.claim_eq_some {s : State} {c : Chan} {q : Claim} :
    (s.seat c).claim = some q ↔ ∃ p, s.playOf c = some p ∧ p.claim = q := by
  simp [State.seat, Engine.seat, State.playOf]

theorem State.endReference_some {s : State} {c : Chan} {p : PlayRecord} (h : s.playOf c = some p) :
    s.endReference c = s.release p.serial := by
  unfold State.endReference
  simp only [State.playOf] at h
  split <;> simp_all [Activity.playRecord?]

/-- R35: a channel that gives up its reference, where it has one, and its claim with it. -/
theorem State.Moves.gives {s t : State} {c : Chan} (hp : t.pages = (s.endReference c).pages)
    (ht : (t.seat c).claim = none) (ho : ∀ d, d ≠ c → t.seat d = s.seat d) : s.Moves t := by
  cases hpl : s.playOf c with
  | none =>
    rw [State.endReference_none hpl] at hp
    refine .quiet hp fun d => ?_
    by_cases hd : d = c
    · subst hd
      exact Or.inr ⟨ht, Or.inl (State.claim_eq_none.mpr hpl)⟩
    · rw [ho d hd]; exact Seat.quiet_refl _
  | some p =>
    rw [State.endReference_some hpl] at hp
    exact .one (.ends c p.claim (State.claim_eq_some.mpr ⟨p, hpl, rfl⟩) hp ht ho)

theorem State.seat_of_chan {s t : State} {c : Chan} (h : t.chan c = s.chan c) : t.seat c = s.seat c := by
  simp only [State.seat, State.engine, h]

/-- An IDLE channel holds nothing. -/
theorem State.seat_idleChannel (s : State) (c : Chan) : (s.idleChannel c).seat c = ⟨false, none⟩ := by
  rw [State.seat, State.idleChannel_eq, State.engine, State.chan_setChan_self]
  rfl

theorem State.pages_idleChannel (s : State) (c : Chan) : (s.idleChannel c).pages = s.pages := by
  rw [State.idleChannel_eq]
  rfl

theorem State.Moves.endRun (s : State) (c : Chan) (cause : RunEndCause) : s.Moves (s.endRun c cause) := by
  refine .gives (c := c) ?_ ?_ fun d hd => State.seat_of_chan (s.chan_endRun_ne (fun e => hd e.symm) cause)
  · exact (State.pages_idleChannel (s.endReference c) c :)
  · rw [State.endRun, State.seat_of_shown (State.shown_notify _ _), State.seat_idleChannel]

theorem State.Moves.faultChannel (s : State) (c : Chan) (cause : FaultCause) (k : Option Nat) :
    s.Moves (s.faultChannel c cause k) := by
  have hs : ∃ f, (s.faultChannel c cause k).shown =
      ((s.endReference c).setEngine c (((s.endReference c).engine c).toFaulted f)).shown :=
    ⟨_, by rw [State.faultChannel, State.shown_notify, State.shown_restOutput, State.shown_haltTimer]⟩
  obtain ⟨f, hs⟩ := hs
  refine .gives (c := c) ?_ ?_ fun d hd =>
    State.seat_of_chan (s.chan_faultChannel_ne (fun e => hd e.symm) cause k)
  · exact (State.shown_eq_iff.mp hs).1
  · rw [State.seat_of_shown hs, State.seat_setEngine, if_pos rfl]
    rfl

theorem State.Moves.resetChannel (s : State) (c : Chan) : s.Moves (s.resetChannel c) := by
  refine .gives (c := c) (State.pages_idleChannel _ c) ?_ fun d hd => ?_
  · unfold State.resetChannel
    simp only
    rw [State.seat_of_shown (State.shown_setTimer _ _ _), State.seat_idleChannel]
  · unfold State.resetChannel
    simp only
    rw [State.seat_of_shown (State.shown_setTimer _ _ _)]
    refine State.seat_of_chan ?_
    rw [State.chan_idleChannel_ne _ fun e => hd e.symm, State.chan_endReference]

end Sys2Proof.Machine
end

section
/-!
The channel engines' moves: sequential advance, steps, passes, starts and pauses, sample periods, and the
events that a channel takes in their order.
-/
namespace Sys2Proof.Machine

variable {c : Chan}

/-! ### Steps -/

/-- The channel is in its program and holds nothing, as a channel that takes steps does. -/
def State.readyAt (s : State) (c : Chan) : Prop := s.seat c = ⟨true, none⟩

theorem State.readyAt_of_shown {s t : State} (hs : t.shown = s.shown) (h : s.readyAt c) : t.readyAt c :=
  (State.seat_of_shown hs c).trans h

/-- A step's outcome: moves, and nothing shown where the channel goes on to the next step. -/
def State.stepMoves (s : State) (r : State × Bool) : Prop :=
  s.Moves r.1 ∧ (r.2 = true → r.1.shown = s.shown)

theorem State.stepMoves.after {s t : State} {r : State × Bool} (hs : t.shown = s.shown)
    (h : t.stepMoves r) : s.stepMoves r :=
  ⟨(State.Moves.of_shown hs).trans h.1, fun hr => (h.2 hr).trans hs⟩

theorem State.stepMoves.stops {s t : State} (h : s.Moves t) : s.stepMoves (t, false) :=
  ⟨h, fun hr => by cases hr⟩

theorem State.stepMoves.goesOn {s t : State} (h : t.shown = s.shown) : s.stepMoves (t, true) :=
  ⟨.of_shown h, fun _ => h⟩

theorem State.shown_loopTest (c : Chan) (i : Nat) : ∀ (turns : Nat) (s : State),
    (s.loopTest c i turns).2.shown = s.shown := by
  intro turns
  induction turns with
  | zero => intro s; rfl
  | succ n ih =>
    intro s
    unfold State.loopTest
    split
    · rfl
    · split
      · split
        · split
          · rw [ih, State.shown_setLoops]
          · exact s.shown_setLoops c _
        · simp only
          split
          · rw [ih, State.shown_setLoops, State.shown_test]
          · exact s.shown_test c _
      · rfl

theorem State.stepMoves_advance (s : State) (c : Chan) : s.stepMoves (s.advance c) := by
  have hl := State.shown_loopTest c (s.engine c).index (s.engine c).loops.length s
  unfold State.advance
  simp only
  split
  · exact .goesOn (by rw [State.shown_goTo, hl])
  · exact .after hl (.stops (.faultChannel _ _ _ _))

theorem State.stepMoves_fault (s : State) (c : Chan) (cause : FaultCause) (k : Option Nat) :
    s.stepMoves (s.faultChannel c cause k, false) := .stops (.faultChannel s c cause k)

theorem State.pages_takeReference_marked (s : State) (c : Chan) (h : Nat) (i : Image) (a b : MarkerAction)
    (e : Engine) :
    (((s.takeReference h i).markOutput c a b).setEngine c e).pages = (s.takeReference h i).pages :=
  (State.shown_eq_iff.mp (State.shown_markOutput (s.takeReference h i) c a b)).1

/-- R34, R88: a claim answered PLAY. -/
theorem State.claimAnswer_play {s : State} {h : Nat} {policy : DamagePolicy} {i : Image}
    (hc : s.claimAnswer h policy = .play i) : (s.handle h).current = some i := by
  unfold State.claimAnswer at hc
  split at hc
  · cases hc
  · rename_i j hj
    split at hc
    · split at hc
      · cases hc
      · cases hc
      · cases hc; exact hj
    · cases hc; exact hj

theorem State.stepMoves_playStep {s : State} (hr : s.readyAt c) (h n : Nat)
    (a1 a2 b1 b2 : MarkerAction) (scale : Option Half) (hold : Option Condition) :
    s.stepMoves (s.playStep c h n a1 a2 b1 b2 scale hold) := by
  unfold State.playStep
  split
  · exact s.stepMoves_fault c _ _
  · exact s.stepMoves_fault c _ _
  · exact s.stepMoves_advance c
  · rename_i i hi
    refine .stops (.one (.begins c h i (State.claimAnswer_play hi) (congrArg Seat.claim hr)
      (s.pages_takeReference_marked c h i a1 b1 _) ?_ fun d hd => ?_))
    · have hrun : (s.seat c).inProgram = true := congrArg Seat.inProgram hr
      rw [State.seat_setEngine, if_pos rfl]
      have hmark : (((s.takeReference h i).markOutput c a1 b1).engine c).run = (s.engine c).run := by
        simp [State.markOutput, State.takeReference]
      simp only [Engine.seat, hmark]
      exact congrArg (Seat.mk · _) hrun
    · rw [State.seat_setEngine, if_neg hd, State.seat_of_shown (State.shown_markOutput _ _ _ _)]
      rfl

theorem State.stepMoves_branchStep (s : State) (q : Condition) (target : Nat) (leave : Bool) :
    s.stepMoves (s.branchStep c q target leave) := by
  unfold State.branchStep
  split
  · exact s.stepMoves_fault c _ _
  · simp only
    split
    · refine .goesOn ?_
      rw [State.shown_goTo]
      split
      · rw [State.shown_setLoops, State.shown_test]
      · exact s.shown_test c q
    · exact .after (s.shown_test c q) (State.stepMoves_advance _ c)

theorem State.stepMoves_loopStep (s : State) (last : Nat) (ending : LoopEnd) :
    s.stepMoves (s.loopStep c last ending) := by
  unfold State.loopStep
  simp only
  split
  · exact s.stepMoves_fault c _ _
  · split
    · exact s.stepMoves_fault c _ _
    · split
      · exact s.stepMoves_fault c _ _
      · exact .goesOn (by rw [State.shown_goTo, State.shown_setLoops])

theorem State.stepMoves_callStep (s : State) (target : Nat) : s.stepMoves (s.callStep c target) := by
  unfold State.callStep
  simp only
  split
  · exact s.stepMoves_fault c _ _
  · split
    · exact s.stepMoves_fault c _ _
    · exact .goesOn (State.shown_setEngine rfl)

theorem State.stepMoves_returnStep (s : State) : s.stepMoves (s.returnStep c) := by
  unfold State.returnStep
  simp only
  split
  · exact s.stepMoves_fault c _ _
  · split
    · exact s.stepMoves_fault c _ _
    · exact .goesOn (State.shown_setEngine rfl)

theorem State.stepMoves_waitStep {s : State} (hr : s.readyAt c) (q : Condition) (out : WaitOutput) :
    s.stepMoves (s.waitStep c q out) := by
  unfold State.waitStep
  simp only
  split
  · exact .after (s.shown_test c q) (State.stepMoves_advance _ c)
  · have ht := State.readyAt_of_shown (s.shown_test c q) hr
    refine .after (s.shown_test c q) (.stops (.of_shown (State.shown_setEngine ?_)))
    rw [ht]
    exact congrArg (Seat.mk · none) (congrArg Seat.inProgram ht)

theorem State.stepMoves_signalStep (s : State) (flag : Option (Fin 8 × FlagAction)) (n : Bool) (u : Byte) :
    s.stepMoves (s.signalStep c flag n u) := by
  unfold State.signalStep
  simp only
  refine .after ?_ (State.stepMoves_advance _ c)
  split <;> split <;> simp

theorem State.stepMoves_executeStep {s : State} (hr : s.readyAt c) : s.stepMoves (s.executeStep c) := by
  unfold State.executeStep
  split
  · exact .stops (.endRun s c _)
  · exact State.stepMoves_playStep hr _ _ _ _ _ _ _ _
  · exact s.stepMoves_loopStep _ _
  · exact s.stepMoves_branchStep _ _ _
  · exact s.stepMoves_callStep _
  · exact s.stepMoves_returnStep
  · exact State.stepMoves_waitStep hr _ _
  · exact .after (s.shown_loadTimer c _ _) (State.stepMoves_advance _ c)
  · exact s.stepMoves_signalStep _ _ _

theorem State.Moves.takeSteps : ∀ (n : Nat) {s : State}, s.readyAt c → s.Moves (s.takeSteps c n) := by
  intro n
  induction n with
  | zero => intro s _; exact .refl s
  | succ n ih =>
    intro s hr
    have h := State.stepMoves_executeStep hr
    unfold State.takeSteps
    simp only
    split
    · rename_i hgo
      have hs : ((s.executeStep c).1.countStep c).shown = s.shown := by
        rw [State.shown_countStep, h.2 hgo]
      exact (State.Moves.of_shown hs).trans (ih (State.readyAt_of_shown hs hr))
    · exact h.1

/-! ### Events at which a channel takes steps -/

/-- What the beginning of an event makes of the channel's seat. -/
theorem State.seat_beginEvent (s : State) (c : Chan) :
    (s.beginEvent c).seat c = ⟨(s.seat c).inProgram, none⟩ := by
  rw [State.beginEvent, State.seat_setEngine, if_pos rfl]
  rfl

theorem State.shown_beginEvent {s : State} (h : (s.seat c).claim = none) :
    (s.beginEvent c).shown = s.shown :=
  State.shown_setEngine (congrArg (Seat.mk _ ·) h.symm)

theorem State.Moves.beginEvent {s : State}
    (h : (s.seat c).claim = none ∨ (s.seat c).inProgram = false) : s.Moves (s.beginEvent c) :=
  .setEngine (Or.inr ⟨rfl, h⟩)

theorem State.readyAt_beginEvent {s : State} (h : (s.seat c).inProgram = true) :
    (s.beginEvent c).readyAt c := by
  rw [State.readyAt, State.seat_beginEvent, h]

theorem State.Moves.stepEvent {s : State} (h : s.readyAt c) : s.Moves (s.stepEvent c) :=
  (State.Moves.beginEvent (Or.inl (congrArg Seat.claim h))).trans
    (.takeSteps _ (State.readyAt_beginEvent (congrArg Seat.inProgram h)))

theorem State.Moves.advanceEvent {s : State} (h : s.readyAt c) : s.Moves (s.advanceEvent c) := by
  have hb := State.Moves.beginEvent (Or.inl (congrArg Seat.claim h))
  have hr := State.readyAt_beginEvent (congrArg Seat.inProgram h)
  have ha := State.stepMoves_advance (s.beginEvent c) c
  unfold State.advanceEvent
  simp only
  split
  · rename_i hgo
    exact hb.trans (ha.1.trans (.takeSteps _ (State.readyAt_of_shown (ha.2 hgo) hr)))
  · exact hb.trans ha.1

/-! ### Starts, releases and pauses -/

/-- The seat of a channel whose run state is named. -/
theorem State.seat_inProgram {s : State} {r : RunState} (h : (s.engine c).run = r) :
    (s.seat c).inProgram = r.inProgram := by
  rw [State.seat, Engine.seat, h]

/-- The seat of a channel whose activity is named. -/
theorem State.seat_claim {s : State} {a : Activity} (h : (s.engine c).activity = a) :
    (s.seat c).claim = a.playRecord?.map PlayRecord.claim := by
  rw [State.seat, Engine.seat, h]

theorem State.readyAt_of {s : State} {r : RunState} {a : Activity} (hr : (s.engine c).run = r)
    (ha : (s.engine c).activity = a) (hr' : r.inProgram = true) (ha' : a.playRecord? = none) :
    s.readyAt c := by
  rw [State.readyAt, State.seat, Engine.seat, hr, ha, hr', ha']
  rfl

/-- R84: an ARMED channel starts. -/
theorem State.Moves.startChannel {s : State} (h : (s.seat c).inProgram = false) :
    s.Moves (s.startChannel c) := by
  have hb : ∀ e : Engine, s.Moves ((s.setEngine c e).beginEvent c) := fun e => by
    rw [State.beginEvent, State.setEngine_setEngine]
    exact .setEngine (Or.inr ⟨rfl, Or.inr h⟩)
  unfold State.startChannel
  simp only
  split
  · exact hb _
  · refine (hb _).trans (.takeSteps _ (State.readyAt_beginEvent ?_))
    rw [State.seat_setEngine, if_pos rfl]
    rfl

theorem State.Moves.startTest (s : State) (c : Chan) : s.Moves (s.startTest c) := by
  unfold State.startTest
  split
  · rename_i q hrun _ _
    have ht := s.shown_test c q
    simp only
    split
    · refine (State.Moves.of_shown ht).trans (.startChannel ?_)
      rw [State.seat_of_shown ht, State.seat_inProgram hrun]
      rfl
    · exact .of_shown ht
  · exact .refl s

theorem State.Moves.releaseTest (s : State) (c : Chan) : s.Moves (s.releaseTest c) := by
  unfold State.releaseTest
  split
  · rename_i w hrun _ hact
    have ht := s.shown_test c w.release
    simp only
    split
    · exact (State.Moves.of_shown ht).trans
        (.advanceEvent (State.readyAt_of_shown ht (State.readyAt_of hrun hact rfl rfl)))
    · exact .of_shown ht
  · exact .refl s

theorem State.Moves.goOn (s : State) (c : Chan) : s.Moves (s.goOn c) := by
  unfold State.goOn
  split
  · exact .releaseTest s c
  · rename_i hrun _ hact
    exact .stepEvent (State.readyAt_of hrun hact rfl rfl)
  · exact .refl s

theorem State.Moves.pauseChanged (s : State) (c : Chan) : s.Moves (s.pauseChanged c) := by
  unfold State.pauseChanged
  simp only
  split
  · exact .setEngine (Or.inl ⟨rfl, fun _ => rfl⟩)
  · refine State.Moves.trans (.setEngine ?_) (.goOn _ c)
    exact Or.inl ⟨rfl, fun _ => rfl⟩
  · exact .refl s

theorem State.Moves.followPauseLine (s : State) (c : Chan) : s.Moves (s.followPauseLine c) := by
  refine State.Moves.trans (.of_shown (State.shown_setEngine ?_)) (.pauseChanged _ c)
  rfl

/-! ### Passes and sample periods -/

/-- R90: a PLAY step completes. -/
theorem State.Moves.completePlay {s : State} {p : PlayRecord}
    (hp : s.seat c = ⟨true, some p.claim⟩) : s.Moves (s.completePlay c p) := by
  have hends : s.Moves (((s.markOutput c p.aEnd p.bEnd).release p.serial).beginEvent c) := by
    refine (State.Moves.of_shown (s.shown_markOutput c p.aEnd p.bEnd)).trans
      (.one (.ends c p.claim ?_ rfl ?_ fun d hd => ?_))
    · rw [State.seat_of_shown (s.shown_markOutput c p.aEnd p.bEnd), hp]
    · rw [State.seat_beginEvent]
    · rw [State.beginEvent, State.seat_setEngine, if_neg hd, State.seat_release]
  have hr : (((s.markOutput c p.aEnd p.bEnd).release p.serial).beginEvent c).readyAt c := by
    refine State.readyAt_beginEvent ?_
    rw [State.seat_release, State.seat_of_shown (s.shown_markOutput c p.aEnd p.bEnd), hp]
  unfold State.completePlay
  simp only
  split
  · exact hends.trans (.endRun _ c _)
  · exact hends.trans (.advanceEvent hr)

/-- A PLAY step that goes on holds what it held. -/
theorem State.shown_setActivity {s : State} {p : PlayRecord} (hp : s.seat c = ⟨true, some p.claim⟩)
    {a : Activity} (ha : a.playRecord?.map PlayRecord.claim = some p.claim) :
    (s.setActivity c a).shown = s.shown := by
  refine State.shown_setEngine ?_
  rw [hp, Engine.seat]
  exact congrArg₂ Seat.mk (congrArg Seat.inProgram hp) ha

theorem State.Moves.holdTest {s : State} {p : PlayRecord} (hp : s.seat c = ⟨true, some p.claim⟩) :
    s.Moves (s.holdTest c p) := by
  unfold State.holdTest
  split
  · exact .completePlay hp
  · rename_i q _
    have ht := s.shown_test c q
    have hp' := (State.seat_of_shown ht c).trans hp
    simp only
    split
    · exact (State.Moves.of_shown ht).trans (.completePlay hp')
    · exact (State.Moves.of_shown ht).then (State.shown_setActivity hp' rfl)

theorem State.Moves.passComplete {s : State} {p : PlayRecord} (hp : s.seat c = ⟨true, some p.claim⟩)
    (counted : Bool) : s.Moves (s.passComplete c p counted) := by
  have ht := s.shown_tapTimer c 7
  have hp' := (State.seat_of_shown ht c).trans hp
  unfold State.passComplete
  simp only
  split
  · exact (State.Moves.of_shown ht).then (State.shown_setActivity hp' rfl)
  · exact (State.Moves.of_shown ht).trans (.holdTest hp')

theorem State.Moves.playPeriod {s : State} {p : PlayRecord} (hp : s.seat c = ⟨true, some p.claim⟩)
    (counted : Bool) : s.Moves (s.playPeriod c p counted) := by
  have hd := s.shown_deliverSample c p.scale (s.sampleAt p.firstPage p.position)
  have hp' := (State.seat_of_shown hd c).trans hp
  unfold State.playPeriod
  simp only
  split
  · refine (State.Moves.of_shown hd).then (State.shown_setActivity hp' ?_)
    split <;> rfl
  · exact (State.Moves.of_shown hd).trans (.passComplete hp' counted)

theorem State.shown_waitPeriod (s : State) (w : WaitRecord) : (s.waitPeriod c w).shown = s.shown := by
  unfold State.waitPeriod
  split <;> simp

theorem State.shown_frozenPeriod (s : State) : (s.frozenPeriod c).shown = s.shown := by
  unfold State.frozenPeriod
  split
  · simp
  · exact s.shown_waitPeriod _
  all_goals split <;> simp

/-- The seat of a channel in a PLAY step. -/
theorem State.seat_of_play {s : State} {r : RunState} {a : Activity} {p : PlayRecord}
    (hr : (s.engine c).run = r) (ha : (s.engine c).activity = a) (hr' : r.inProgram = true)
    (ha' : a.playRecord? = some p) : s.seat c = ⟨true, some p.claim⟩ := by
  rw [State.seat, Engine.seat, hr, ha, hr', ha']
  rfl

theorem State.Moves.samplePeriod (s : State) (c : Chan) : s.Moves (s.samplePeriod c) := by
  have hs : s.Moves (s.setOutput c (s.output c).settle) := .of_shown (by simp)
  unfold State.samplePeriod
  simp only
  generalize s.setOutput c (s.output c).settle = u at hs
  split
  · exact hs.then (by simp)
  · exact hs.then (by simp)
  · exact hs.then (by simp)
  · exact hs.then (State.shown_frozenPeriod u)
  · rename_i hrun
    split
    · rename_i hact
      exact (hs.then (by simp)).trans (.stepEvent
        (State.readyAt_of_shown (u.shown_carryRest c) (State.readyAt_of hrun hact rfl rfl)))
    · exact hs.then (State.shown_waitPeriod u _)
    · rename_i p hact
      exact hs.trans (.playPeriod (State.seat_of_play hrun hact rfl rfl) true)
    · rename_i p hact
      exact hs.trans (.playPeriod (State.seat_of_play hrun hact rfl rfl) false)

theorem State.Moves.periodEvent (s : State) (c : Chan) : s.Moves (s.periodEvent c) := by
  have hs : ((s.taken (.samplePeriod c)).setRate c
      { (s.taken (.samplePeriod c)).rate c with phase := 0 }).shown = s.shown := by
    rw [State.shown_setRate, State.shown_taken]
  exact (State.Moves.of_shown hs).trans (.samplePeriod _ c)

theorem State.Moves.passPeriods : ∀ (n : Nat) (s : State), s.Moves (s.passPeriods c n) := by
  intro n
  induction n with
  | zero => intro s; exact .refl s
  | succ n ih =>
    intro s
    unfold State.passPeriods
    split
    · refine State.Moves.trans ?_ (ih _)
      split
      · exact .of_shown (by simp)
      · exact (State.Moves.periodEvent s c).then (by simp)
    · exact .refl s

/-! ### The hold and operand changes -/

theorem State.Moves.dropHold (s : State) (c : Chan) : s.Moves (s.dropHold c) := by
  unfold State.dropHold
  simp only
  split
  · have hfree : s.Moves (s.setEngine c { s.engine c with held := false }) :=
      .of_shown (State.shown_setEngine rfl)
    generalize s.setEngine c { s.engine c with held := false } = u at hfree
    have hpass : s.Moves ((u.passPeriods c (s.periodsBefore c (.holdDrop (.channel c)))).taken
        (.holdDrop (.channel c))) :=
      (hfree.trans (.passPeriods _ u)).then (State.shown_taken _ _)
    split
    · exact hpass.trans (.startTest _ c)
    · exact hpass.trans (.goOn _ c)
    all_goals exact hpass
  · exact .of_shown (by simp)

theorem State.Moves.changeEvent (s : State) (c : Chan) : s.Moves (s.changeEvent c) := by
  have hpass : s.Moves ((if (s.engine c).retests then
      s.passPeriods c (s.periodsBefore c (.operandChange c)) else s).taken (.operandChange c)) := by
    refine State.Moves.then ?_ (State.shown_taken _ _)
    split
    · exact .passPeriods _ s
    · exact .refl s
  unfold State.changeEvent
  simp only
  split
  · exact hpass.trans (.startTest _ c)
  · exact hpass.trans (.releaseTest _ c)
  all_goals exact hpass

theorem State.shown_raiseEvent (s : State) (target : HoldTarget) :
    (s.raiseEvent target).shown = s.shown := by
  unfold State.raiseEvent
  simp only
  split
  · unfold State.raiseHold
    split
    · refine (State.shown_setEngine ?_).trans (State.shown_taken _ _)
      rfl
    · rfl
  all_goals rfl

theorem State.Moves.dropEvent (s : State) (target : HoldTarget) : s.Moves (s.dropEvent target) := by
  unfold State.dropEvent
  split
  · exact .dropHold s _
  all_goals exact .of_shown (by simp)

theorem State.Moves.signalEvent (s : State) (e : Instr) : s.Moves (s.signalEvent e) := by
  unfold State.signalEvent
  split
  · exact .changeEvent s _
  · exact .of_shown (s.shown_raiseEvent _)
  · exact .dropEvent s _
  · exact .refl s

theorem State.Moves.catchUp (s : State) (c : Chan) (e : Instr) : s.Moves (s.catchUp c e) :=
  .foldl (fun u e => (u.signalEvent e).transmit) (fun u e => (State.Moves.signalEvent u e).then (by simp)) _ s

theorem State.Moves.catchUpAt (s : State) (target : HoldTarget) (e : Instr) :
    s.Moves (s.catchUpAt target e) := by
  unfold State.catchUpAt
  split
  · exact .catchUp s _ e
  all_goals exact .refl s

/-! ### Requests on the engines -/

/-- R83: the named channels of a RUN are IDLE, and hold nothing once they are ARMED. -/
theorem State.Moves.runChannels {s : State} {mask : Byte}
    (h : ∀ c : Chan, mask.getLsbD c.val = true → (s.engine c).run = .idle) (start : Nat) (q : Condition) :
    s.Moves (s.runChannels mask start q) := by
  obtain ⟨hchan, hrest⟩ := s.prepared_eq mask start q
  unfold State.runChannels
  simp only
  refine State.Moves.trans (.quiet ?_ fun c => ?_) (.foldl (fun u c => u.startTest c) .startTest _ _)
  · rw [hrest]; rfl
  · by_cases hc : c ∈ maskChannels mask
    · refine Or.inr ⟨?_, Or.inr ?_⟩
      · rw [State.seat, State.engine, hchan c, if_pos hc]
        rfl
      · rw [State.seat_inProgram (h c ((mem_maskChannels mask c).mp hc))]
        rfl
    · rw [State.seat_of_chan ((hchan c).trans (if_neg hc))]
      exact Seat.quiet_refl _

theorem State.Moves.stopNow (s : State) (c : Chan) : s.Moves (s.stopNow c) := by
  unfold State.stopNow
  split
  · exact .endRun s c _
  · exact .refl s

theorem State.Moves.stopAfterPlay (s : State) (c : Chan) : s.Moves (s.stopAfterPlay c) := by
  unfold State.stopAfterPlay
  split
  case h_5 => exact .stopNow s c
  all_goals exact .of_shown (State.shown_setEngine rfl)

theorem State.Moves.pauseChannel (s : State) (c : Chan) : s.Moves (s.pauseChannel c) := by
  unfold State.pauseChannel
  split
  · refine State.Moves.trans (.of_shown (State.shown_setEngine ?_)) (.pauseChanged _ c)
    rfl
  · exact .refl s

theorem State.Moves.resumeChannel (s : State) (c : Chan) : s.Moves (s.resumeChannel c) := by
  refine State.Moves.trans (.of_shown (State.shown_setEngine ?_)) (.pauseChanged _ c)
  rfl

theorem State.Moves.idleChannel {s : State} (h : (s.seat c).inProgram = false) :
    s.Moves (s.idleChannel c) := by
  refine .quiet (s.pages_idleChannel c) fun d => ?_
  by_cases hd : d = c
  · subst hd
    exact Or.inr ⟨by rw [State.seat_idleChannel], Or.inr h⟩
  · rw [State.seat_of_chan (s.chan_idleChannel_ne fun e => hd e.symm)]
    exact Seat.quiet_refl _

end Sys2Proof.Machine
end

section
/-!
Every request and every event is a chain of moves, and so is a step of the machine; with the invariant of
pages at every move, the statement about it.
-/
namespace Sys2Proof.Machine

/-! ### Images that are discarded -/

@[simp] theorem State.engine_discardIncoming (s : State) (h : Nat) (c : Chan) :
    (s.discardIncoming h).engine c = s.engine c := by
  unfold State.discardIncoming
  split <;> rfl

@[simp] theorem State.engine_cancelImport (s : State) (cause : CancelCause) (c : Chan) :
    (s.cancelImport cause).engine c = s.engine c := by
  unfold State.cancelImport
  split
  · rfl
  · rw [State.engine_discardIncoming]; rfl

theorem State.Moves.cancelImport (s : State) (cause : CancelCause) : s.Moves (s.cancelImport cause) :=
  .image (.cancels cause) fun c => s.engine_cancelImport cause c

theorem State.Moves.dropIncoming (s : State) (h : Nat) (cause : CancelCause) :
    s.Moves (s.dropIncoming h cause).2 := by
  unfold State.dropIncoming
  split
  · exact .cancelImport s cause
  · rename_i hf
    exact .image (.discards (Bool.eq_false_iff.mpr hf)) fun c => s.engine_discardIncoming h c

/-- R32: what the handle of a current image keeps when its incoming image is discarded. -/
theorem State.discardIncoming_current {s : State} {h : Nat} {old : Image}
    (hcur : (s.handle h).current = some old) :
    (s.discardIncoming h).handle h = ⟨some old, none⟩ ∧ (s.discardIncoming h).guards = s.guards ∧
      (s.discardIncoming h).retired = s.retired := by
  unfold State.discardIncoming
  split
  · rename_i hin
    exact ⟨by rw [← hcur, ← hin], rfl, rfl⟩
  · refine ⟨?_, rfl, rfl⟩
    refine (State.handle_setHandle_self s h ?_).trans (congrArg (HandleRecord.mk · none) hcur)
    simp [hcur, HandleRecord.empty]

theorem State.dropIncoming_current {s : State} {h : Nat} {old : Image} (cause : CancelCause)
    (hcur : (s.handle h).current = some old) :
    (s.dropIncoming h cause).2.handle h = ⟨some old, none⟩ ∧
      (s.dropIncoming h cause).2.guards = s.guards ∧
      (s.dropIncoming h cause).2.retired = s.retired := by
  unfold State.dropIncoming
  split
  · rename_i hf
    unfold State.importFills at hf
    unfold State.cancelImport
    split at hf
    · cases hf
    · rename_i r hr
      have hh : r.handle = h := by simpa using hf
      simp only [hh]
      exact State.discardIncoming_current (s := State.notify _ _) hcur
  · exact State.discardIncoming_current hcur

/-! ### Images that are committed -/

theorem State.engine_dispose (s : State) (h : Nat) (i : Image) (c : Chan) :
    (s.dispose h i).2.engine c = s.engine c := by
  unfold State.dispose
  split <;> rfl

/-- R25, R26: a commit attempt that is not refused. -/
theorem State.Moves.commitAttempt {s u : State} {h : Nat} {i : Image} {d : Option (Nat × Disposition)}
    (hin : (s.handle h).incoming = some i) (hi : i.checked = true)
    (hc : s.commitAttempt h i = .ok (d, u)) : s.Moves u := by
  unfold State.commitAttempt at hc
  split at hc
  · rename_i hcur
    obtain ⟨-, rfl⟩ := Prod.mk.inj (Except.ok.inj hc)
    exact .image (.binds hcur hin hi) fun c => rfl
  · rename_i old hcur
    split at hc
    · cases hc
    · rename_i hm
      obtain ⟨-, rfl⟩ := Prod.mk.inj (Except.ok.inj hc)
      rw [← hin]
      exact .image (.leaves hcur (fun j hj => by rw [hin] at hj; cases hj; exact hi) hm) fun c => by
        rw [State.engine_dispose]; rfl

/-- A commit attempt reads and writes nothing of the import. -/
theorem State.commitAttempt_importer (s : State) (x : Importer) (h : Nat) (i : Image) :
    ({ s with importer := x } : State).commitAttempt h i =
      (s.commitAttempt h i).map fun r => (r.1, { r.2 with importer := x }) := by
  have hk : ({ s with importer := x } : State).handle h = s.handle h := rfl
  have hm : ∀ j, ({ s with importer := x } : State).mayLeave j = s.mayLeave j := fun j => rfl
  unfold State.commitAttempt
  rw [hk]
  split
  · rfl
  · rw [hm]
    split
    · rfl
    · unfold State.dispose
      split <;> rfl

theorem State.incoming_setHandle (s : State) (h : Nat) (c : Option Image) (i : Image) :
    ((s.setHandle h ⟨c, some i⟩).handle h).incoming = some i := by
  rw [State.handle_setHandle_self s h (by simp [HandleRecord.empty])]

/-! ### Requests on images and imports -/

theorem State.engine_createImage {s u : State} {h n : Nat} {source : FillSource} {flag : Bool} {i : Image}
    (hc : s.createImage h n source flag = some (i, u)) (c : Chan) : u.engine c = s.engine c := by
  obtain ⟨first, free, -, -, rfl⟩ := State.createImage_some hc
  rfl

theorem State.engine_writeImagePage (s : State) (h : Nat) (i : Image) (k : Nat) (data : List Byte)
    (c : Chan) : (s.writeImagePage h i k data).engine c = s.engine c := by
  unfold State.writeImagePage
  simp only
  split <;> rfl

theorem State.Moves.takeDefineImage (s : State) (h : Half) (n : Quad) (b : Byte) :
    s.Moves (takeDefineImage h n b s).1 := by
  unfold Machine.takeDefineImage
  split
  · exact .refl s
  · split
    · exact .refl s
    · split
      · exact .refl s
      · split
        · exact .refl s
        · split
          · exact .refl s
          · rename_i hh _ _ _ hn hin _ _ _ hc
            exact .image (.creates (by omega) (by omega) (by simpa using hin) hc)
              (State.engine_createImage hc)

theorem State.Moves.takeWritePage (s : State) (h k : Half) (xs : List Half) :
    s.Moves (takeWritePage h k xs s).1 := by
  unfold Machine.takeWritePage
  split
  · exact .refl s
  · split
    · exact .refl s
    · rename_i i hin
      split
      · exact .refl s
      · split
        · exact .refl s
        · rename_i ht hk
          exact .image (.writes _ hin (by simpa using ht) (by omega)) fun c =>
            s.engine_writeImagePage _ i _ _ c

theorem State.Moves.takeFinishImage (s : State) (h : Half) : s.Moves (takeFinishImage h s).1 := by
  unfold Machine.takeFinishImage
  split
  · exact .refl s
  · split
    · exact .refl s
    · rename_i i hin
      split
      · rename_i commit written hp hsrc
        split
        · exact .refl s
        · have hready : s.Moves (s.setHandle h.toNat
              { s.handle h.toNat with incoming := some (s.readied i) }) :=
            .image (.readies hin (by simp [Image.takesRequests, hp, hsrc])) fun c => rfl
          simp only
          split
          · split
            · exact hready
            · rename_i hc
              exact hready.trans (.commitAttempt (s.incoming_setHandle _ _ _) rfl hc)
          · exact hready
      · exact .refl s

theorem State.Moves.takeCommit (s : State) (h : Half) : s.Moves (takeCommit h s).1 := by
  unfold Machine.takeCommit
  split
  · exact .refl s
  · split
    · exact .refl s
    · rename_i i hin
      split
      · exact .refl s
      all_goals
        rename_i hp
        split
        · exact .refl s
        · rename_i hc
          exact .commitAttempt hin (by simp [Image.checked, hp]) hc

theorem State.Moves.takeDropIncoming (s : State) (h : Half) : s.Moves (takeDropIncoming h s).1 := by
  unfold Machine.takeDropIncoming
  split
  · exact .refl s
  · split
    · exact .refl s
    · exact .dropIncoming s _ _

theorem State.Moves.releaseIncoming (s : State) (h : Nat) : s.Moves (s.releaseIncoming h).2 := by
  unfold State.releaseIncoming
  split
  · exact .refl s
  · exact .dropIncoming s _ _

theorem State.releaseIncoming_current {s : State} {h : Nat} {old : Image}
    (hcur : (s.handle h).current = some old) :
    (s.releaseIncoming h).2.handle h = ⟨some old, none⟩ ∧
      (s.releaseIncoming h).2.guards = s.guards ∧ (s.releaseIncoming h).2.retired = s.retired := by
  unfold State.releaseIncoming
  split
  · rename_i hin
    exact ⟨by rw [← hcur, ← hin], rfl, rfl⟩
  · exact State.dropIncoming_current .release hcur

theorem State.Moves.takeReleaseHandle (s : State) (h : Half) : s.Moves (takeReleaseHandle h s).1 := by
  unfold Machine.takeReleaseHandle
  split
  · exact .refl s
  · split
    · exact .refl s
    · exact .releaseIncoming s _
    · rename_i old hcur
      split
      · exact .refl s
      · rename_i hm
        obtain ⟨hk, hg, hr⟩ := State.releaseIncoming_current hcur
        have hm' : (s.releaseIncoming h.toNat).2.mayLeave old = none := by
          unfold State.mayLeave at hm ⊢
          rw [hg, hr]
          exact hm
        refine (State.Moves.releaseIncoming s h.toNat).trans (.image ?_ fun c => State.engine_dispose _ _ _ c)
        have hl := ImageStep.leaves (s := (s.releaseIncoming h.toNat).2) (h := h.toNat) (old := old)
          (by rw [hk]) (fun j hj => by rw [hk] at hj; cases hj) hm'
        rw [hk] at hl
        exact hl

theorem State.Moves.takeStartImport (s : State) (h : Half) (a n : Quad) (b : Byte) :
    s.Moves (takeStartImport h a n b s).1 := by
  unfold Machine.takeStartImport
  simp only
  split
  · exact .refl s
  · split
    · exact .refl s
    · split
      · exact .refl s
      · split
        · exact .refl s
        · split
          · exact .refl s
          · split
            · exact .refl s
            · split
              · exact .refl s
              · rename_i hh _ hrec hin _ _ _ hn _ _ _ hc
                exact .image (.imports (by omega) (by omega) (by simpa using hrec) (by simpa using hin) hc)
                  fun c => (State.engine_createImage hc c :)

theorem State.Moves.takeCancelImport (s : State) : s.Moves (takeCancelImport s).1 := by
  unfold Machine.takeCancelImport
  split
  · exact .refl s
  · exact .cancelImport s _

theorem State.Moves.takeCloseLibrary (s : State) : s.Moves (takeCloseLibrary s).1 := by
  unfold Machine.takeCloseLibrary
  split
  · exact .refl s
  · refine .after ?_ (.cancelImport _ .close)
    rfl

/-! ### Pages of an import -/

theorem State.Moves.completeImport {s : State} {r : ImportRecord} {i : Image} (data : List Byte)
    (hrec : s.importer.record = some r) (hin : (s.handle r.handle).incoming = some i) :
    s.Moves ((s.writeImagePage r.handle i r.nextPage data).completeImport r i) := by
  have hwhole : s.Moves (s.importedWhole r i data) :=
    .image (.importsWhole data hrec hin) fun c => s.engine_writeImagePage _ i _ _ c
  refine hwhole.trans ?_
  unfold State.completeImport State.importedWhole
  generalize s.writeImagePage r.handle i r.nextPage data = u
  simp only
  split
  · split
    · exact .of_shown rfl
    · rename_i d t hc
      have hc' := State.commitAttempt_importer
        (u.setHandle r.handle { u.handle r.handle with incoming := some (u.readied i) })
        { u.importer with record := none, reading := none } r.handle (u.readied i)
      rw [hc] at hc'
      exact (State.Moves.commitAttempt (by exact u.incoming_setHandle r.handle _ _) (by rfl) hc').then rfl
  · exact .of_shown rfl

theorem State.Moves.completePage {s : State} {r : ImportRecord} (data : List Byte)
    (hrec : s.importer.record = some r) : s.Moves (s.completePage r data) := by
  unfold State.completePage
  split
  · exact .refl s
  · rename_i i hin
    simp only
    split
    · rename_i hn
      exact .image (.importsPage data hrec hin hn) fun c => s.engine_writeImagePage _ i _ _ c
    · exact .completeImport data hrec hin

/-! ### The walk, the clock and decay -/

theorem State.Moves.markDamage (s : State) (i : Image) (page : Nat) : s.Moves (s.markDamage i page) := by
  have hm : s.Moves (s.mapImages (Image.marked i.ident page)) := .image (.marks _ _) fun c => rfl
  unfold State.markDamage
  simp only
  split
  · exact hm
  · split
    · exact hm
    · exact hm.then rfl

theorem State.Moves.compareRead (s : State) (r : PageRead) : s.Moves (s.compareRead r) := by
  unfold State.compareRead
  split
  · exact .refl s
  · split
    · exact .markDamage s _ _
    · exact .refl s

theorem State.Moves.decayPage {s : State} {page : Nat} (data : List Byte) (hp : page < Config.pages) :
    s.Moves (s.decayPage page data) := by
  unfold State.decayPage
  split
  · rename_i hd
    exact .image (.decays hp hd.1) fun c => rfl
  · exact .refl s

@[simp] theorem State.shown_endSwitch (s : State) (x : Source) (l : LockStatus) (r : ReferenceCause) :
    (s.endSwitch x l r).shown = s.shown := rfl

@[simp] theorem State.shown_lockAcquired (s : State) : s.lockAcquired.shown = s.shown := by
  unfold State.lockAcquired
  split <;> simp

@[simp] theorem State.shown_lockTimeoutExpired (s : State) : s.lockTimeoutExpired.shown = s.shown := by
  unfold State.lockTimeoutExpired
  split <;> simp

@[simp] theorem State.shown_transferDone (s : State) : s.transferDone.shown = s.shown := by
  unfold State.transferDone
  split <;> simp

@[simp] theorem State.shown_referenceLost (s : State) : s.referenceLost.shown = s.shown := by
  unfold State.referenceLost
  split <;> rfl

/-! ### Requests on the other blocks -/

theorem State.Moves.takeRun (s : State) (m : Byte) (start : Half) (k n : Byte) :
    s.Moves (takeRun m start k n s).1 := by
  unfold Machine.takeRun
  split
  · split
    · exact .refl s
    · simp only
      split
      · exact .refl s
      · split
        · exact .refl s
        · split
          · exact .refl s
          · rename_i hidle _ _
            refine .runChannels (fun c hc => ?_) _ _
            have hnone := (maskOf_eq_zero _).mp (not_not.mp hidle) c
            simpa [hc] using hnone
  · exact .refl s

theorem State.Moves.takeStop (s : State) (m o : Byte) : s.Moves (takeStop m o s).1 := by
  unfold Machine.takeStop
  split
  · exact .refl s
  · split
    · exact .refl s
    · rename_i after _ _
      refine .foldl (fun u c => if after then u.stopAfterPlay c else u.stopNow c) (fun u c => ?_) _ s
      split
      · exact .stopAfterPlay u c
      · exact .stopNow u c

theorem State.Moves.takePause (s : State) (m : Byte) : s.Moves (takePause m s).1 := by
  unfold Machine.takePause
  split
  · exact .refl s
  · exact .foldl (fun u c => u.pauseChannel c) .pauseChannel _ s

theorem State.Moves.takeResume (s : State) (m : Byte) : s.Moves (takeResume m s).1 := by
  unfold Machine.takeResume
  split
  · exact .refl s
  · exact .foldl (fun u c => u.resumeChannel c) .resumeChannel _ s

theorem State.Moves.takeClearFault (s : State) (x : Byte) : s.Moves (takeClearFault x s).1 := by
  unfold Machine.takeClearFault
  split
  · exact .refl s
  · split
    · rename_i hrun _
      exact .idleChannel (by rw [State.seat_inProgram hrun]; rfl)
    · exact .refl s

theorem State.Moves.takeSetPolicy (s : State) (x p r n : Byte) : s.Moves (takeSetPolicy x p r n s).1 := by
  unfold Machine.takeSetPolicy
  split
  · refine State.Moves.trans (.of_shown ?_) (.followPauseLine _ _)
    refine (State.shown_setTimer _ _ _).trans (State.shown_setEngine ?_)
    rfl
  · exact .refl s

theorem shown_takeSetGuard (n : Byte) (f l : Half) (m : Byte) (s : State) :
    (takeSetGuard n f l m s).1.shown = s.shown := by
  unfold takeSetGuard
  split
  · split
    · split
      · rfl
      · split <;> rfl
    · rfl
  · rfl

theorem shown_takeClearGuard (n : Byte) (s : State) : (takeClearGuard n s).1.shown = s.shown := by
  unfold takeClearGuard
  split
  · split <;> rfl
  · rfl

theorem shown_takeLockGuards (n : Byte) (s : State) : (takeLockGuards n s).1.shown = s.shown := by
  unfold takeLockGuards
  split
  · rfl
  · split <;> rfl

theorem shown_takeSetWalk (e i b : Byte) (f l : Half) (s : State) :
    (takeSetWalk e i b f l s).1.shown = s.shown := by
  unfold takeSetWalk
  simp only
  split
  · rfl
  · rfl
  · split
    · rfl
    · split <;> rfl

theorem shown_takeSetPartition (cs : List Byte) (s : State) :
    (takeSetPartition cs s).1.shown = s.shown := by
  unfold takeSetPartition
  split
  · rfl
  · split <;> rfl

theorem shown_takeWriteSteps (x : Byte) (f : Half) (n : Byte) (rs : List (BitVec 64)) (s : State) :
    (takeWriteSteps x f n rs s).1.shown = s.shown := by
  unfold takeWriteSteps
  split
  · rfl
  · split
    · rfl
    · split
      · rfl
      · split
        · rfl
        · split <;> rfl

theorem shown_takeReadSteps (x : Byte) (f : Half) (n : Byte) (s : State) :
    (takeReadSteps x f n s).1.shown = s.shown := by
  unfold takeReadSteps
  split
  · rfl
  · split
    · rfl
    · split <;> rfl

theorem shown_takeSetRoute (x r p : Byte) (es : List Byte) (s : State) :
    (takeSetRoute x r p es s).1.shown = s.shown := by
  unfold takeSetRoute
  split
  · split
    · rfl
    · simp only
      split
      · rfl
      · exact State.shown_setLatches s _ _
  · rfl

theorem shown_takeSetReference (x : Byte) (s : State) : (takeSetReference x s).1.shown = s.shown := by
  unfold takeSetReference
  split
  · rfl
  · split
    · rfl
    · change State.shown (if _ then _ else _) = _
      split
      · rfl
      · split <;> rfl

theorem shown_takeSetRate (x : Byte) (d : Quad) (s : State) : (takeSetRate x d s).1.shown = s.shown := by
  unfold takeSetRate
  split
  · rfl
  · split
    · rfl
    · split
      · rfl
      · exact (State.shown_withdraw _ _).trans (s.shown_setRate _ _)

theorem shown_takeSetOutput (x : Byte) (g o lo hi r : Half) (e a b : Byte) (s : State) :
    (takeSetOutput x g o lo hi r e a b s).1.shown = s.shown := by
  unfold takeSetOutput
  split
  · split
    · rfl
    · split
      · rfl
      · exact s.shown_setOutput _ _
  · rfl

theorem shown_takeReadOutput (x : Byte) (s : State) : (takeReadOutput x s).1.shown = s.shown := by
  unfold takeReadOutput
  split
  · rfl
  · exact s.shown_setOutput _ _

theorem shown_takeSetFlags (a b c : Byte) (s : State) : (takeSetFlags a b c s).1.shown = s.shown := by
  unfold takeSetFlags
  split
  · rfl
  · simp only [answer, State.shown_writeFlags]

theorem shown_takeFireTrigger (m : Byte) (s : State) : (takeFireTrigger m s).1.shown = s.shown := by
  unfold takeFireTrigger
  split
  · rfl
  · simp only [answer, State.shown_softwareTrigger]

theorem shown_takeWake (s : State) : (takeWake s).1.shown = s.shown := by
  unfold takeWake
  split
  · exact State.shown_resumeWalk _
  · rfl

theorem shown_takeEnterStandby (s : State) : (takeEnterStandby s).1.shown = s.shown := by
  unfold takeEnterStandby
  split <;> rfl

theorem shown_takeSetNotices (m : Byte) (s : State) : (takeSetNotices m s).1.shown = s.shown := by
  unfold takeSetNotices
  split <;> rfl

theorem shown_takeReadChannel (x : Byte) (s : State) : (takeReadChannel x s).1.shown = s.shown := by
  unfold takeReadChannel
  split <;> rfl

theorem shown_takeReadHandle (h : Half) (s : State) : (takeReadHandle h s).1.shown = s.shown := by
  unfold takeReadHandle
  split <;> rfl

theorem shown_takeReadMap (k : Half) (s : State) : (takeReadMap k s).1.shown = s.shown := by
  unfold takeReadMap
  split <;> rfl

/-- What a block does with any request is a chain of moves. -/
theorem State.Moves.take {i : Instr} {take : State → Answer} (h : takeOf i = some take) (s : State) :
    s.Moves (take s).1 := by
  cases i <;> simp only [takeOf, Option.some.injEq, reduceCtorEq] at h <;> subst h
  case defineImage => exact .takeDefineImage s _ _ _
  case writePage => exact .takeWritePage s _ _ _
  case finishImage => exact .takeFinishImage s _
  case commit => exact .takeCommit s _
  case dropIncoming => exact .takeDropIncoming s _
  case releaseHandle => exact .takeReleaseHandle s _
  case startImport => exact .takeStartImport s _ _ _ _
  case cancelImport => exact .takeCancelImport s
  case closeLibrary => exact .takeCloseLibrary s
  case run => exact .takeRun s _ _ _ _
  case stop => exact .takeStop s _ _
  case pause => exact .takePause s _
  case resume => exact .takeResume s _
  case clearFault => exact .takeClearFault s _
  case setPolicy => exact .takeSetPolicy s _ _ _ _
  case enterStandby => exact .of_shown (shown_takeEnterStandby s)
  case wake => exact .of_shown (shown_takeWake s)
  case setNotices => exact .of_shown (shown_takeSetNotices _ s)
  case readHandle => exact .of_shown (shown_takeReadHandle _ s)
  case readMap => exact .of_shown (shown_takeReadMap _ s)
  case setGuard => exact .of_shown (shown_takeSetGuard _ _ _ _ s)
  case clearGuard => exact .of_shown (shown_takeClearGuard _ s)
  case lockGuards => exact .of_shown (shown_takeLockGuards _ s)
  case setWalk => exact .of_shown (shown_takeSetWalk _ _ _ _ _ s)
  case setPartition => exact .of_shown (shown_takeSetPartition _ s)
  case writeSteps => exact .of_shown (shown_takeWriteSteps _ _ _ _ s)
  case readSteps => exact .of_shown (shown_takeReadSteps _ _ _ s)
  case readChannel => exact .of_shown (shown_takeReadChannel _ s)
  case setFlags => exact .of_shown (shown_takeSetFlags _ _ _ s)
  case fireTrigger => exact .of_shown (shown_takeFireTrigger _ s)
  case setRoute => exact .of_shown (shown_takeSetRoute _ _ _ _ s)
  case setReference => exact .of_shown (shown_takeSetReference _ s)
  case setRate => exact .of_shown (shown_takeSetRate _ _ s)
  case setOutput => exact .of_shown (shown_takeSetOutput _ _ _ _ _ _ _ _ _ s)
  case readOutput => exact .of_shown (shown_takeReadOutput _ s)
  all_goals exact .of_shown rfl

/-! ### Events -/

theorem State.Moves.handOnNext (s : State) : s.Moves s.handOnNext := by
  unfold State.handOnNext
  split
  · rename_i f rest _ _
    refine .after (t := { s with link := { s.link with requests := rest } }) ?_ ?_
    · rfl
    unfold State.handOn
    split
    · exact .of_shown rfl
    · exact .of_shown rfl
    · split
      · rename_i ht
        exact (State.Moves.take ht _).then rfl
      · exact .refl _
  · exact .refl s

theorem State.Moves.engineReset (s : State) : s.Moves s.engineReset := by
  have h : s.Moves ((s.eachChannel fun c s => s.resetChannel c).cancelImport .request) :=
    (State.Moves.foldl (fun u c => u.resetChannel c) .resetChannel _ s).trans (.cancelImport _ _)
  unfold State.engineReset
  generalize (s.eachChannel fun c s => s.resetChannel c).cancelImport .request = u at h
  exact h.then rfl

theorem State.Moves.completeSending (s : State) : s.Moves s.completeSending := by
  unfold State.completeSending
  split
  · exact .refl s
  · exact .of_shown rfl
  · refine .after (t := { s with link := { s.link with
      sending := none, slot := none, lastSent := some .reply } }) ?_ ?_
    · rfl
    · unfold State.afterReply
      split
      · exact .refl _
      · exact .of_shown rfl
      · exact .engineReset _
  · exact .of_shown rfl

/-- R215: the channels at a reset. -/
theorem State.seat_resetBlocks (s : State) (c : Chan) : s.resetBlocks.seat c = ⟨false, none⟩ := by
  have h : State.reset.seat c = ⟨false, none⟩ := by revert c; decide
  exact h

theorem State.Moves.resets {s t : State} (m : Memory) (w : Sparse Half)
    (hm : (m = s.memory ∧ w = s.checkWords) ∨ (m = [] ∧ w = []))
    (ht : t.shown = State.shown { s.resetBlocks with memory := m, checkWords := w }) : s.Moves t := by
  obtain ⟨hp, hc⟩ := State.shown_eq_iff.mp ht
  exact .one (.resets m w hm (hp.trans rfl) fun c => (hc c).trans (s.seat_resetBlocks c))

theorem State.shown_leaveReset (s : State) : s.leaveReset.shown = s.shown := by
  unfold State.leaveReset
  split <;> rfl

theorem State.Moves.event {s t : State} {f : State → State} (h : event f s = .next t)
    (hf : s.Moves (f s)) : s.Moves t :=
  event_keeps s.Moves f s t (.refl s) hf (fun _ _ hu => hu.then rfl) h

theorem State.Moves.request {i : Instr} {take : State → Answer} {s t : State}
    (ht : takeOf i = some take) (h : exec i s = .next t) : s.Moves t :=
  submit_keeps s.Moves i take s t (.refl s) (.take ht s) (fun _ _ hu => hu.then rfl)
    ((exec_request ht s).symm.trans h)

theorem State.Moves.execReceiveCharacter {s t : State} {b : Byte} {high : Bool}
    (h : execReceiveCharacter b high s = .next t) : s.Moves t := by
  refine .event h (.of_shown ?_)
  split
  · exact s.shown_receiveByte b
  · exact s.shown_framingError

theorem State.Moves.execStandbyBegin {s t : State} (h : execStandbyBegin s = .next t) : s.Moves t := by
  refine .event h ?_
  split
  · exact .completeSending s
  · exact .refl s

theorem State.Moves.execEngineResetPerformed {s t : State}
    (h : execEngineResetPerformed s = .next t) : s.Moves t := by
  refine .event h ?_
  split
  · exact .completeSending s
  · exact .refl s

theorem State.Moves.execPowerOnReset {s t : State} {rate : BitVec 2} {lib ref : Bool}
    (h : execPowerOnReset rate lib ref s = .next t) : s.Moves t := by
  obtain rfl := Host.Outcome.next.inj h
  refine .resets [] [] (Or.inr ⟨rfl, rfl⟩) ?_
  split
  · rfl
  · rw [State.shown_leaveReset]; rfl

theorem State.Moves.execResetLine {s t : State} (h : execResetLine s = .next t) : s.Moves t := by
  obtain rfl := Host.Outcome.next.inj h
  exact .resets s.memory s.checkWords (Or.inl ⟨rfl, rfl⟩) rfl

theorem State.Moves.execResetLineRelease {s t : State} (h : execResetLineRelease s = .next t) :
    s.Moves t := by
  obtain rfl := Host.Outcome.next.inj h
  refine .of_shown ?_
  split
  · rw [State.shown_leaveReset]; rfl
  · rfl

theorem State.Moves.execPauseLineChange {s t : State} {high : Bool}
    (h : execPauseLineChange high s = .next t) : s.Moves t := by
  obtain rfl := Host.Outcome.next.inj h
  have hline : State.shown { s with pauseLine := high } = s.shown := rfl
  exact (State.Moves.after hline (.foldl (fun u c => u.followPauseLine c) .followPauseLine allChannels _)).then
    (State.shown_transmit _)

theorem State.Moves.execTriggerLineChange {s t : State} {n : Fin 4} {high : Bool}
    (h : execTriggerLineChange n high s = .next t) : s.Moves t := by
  obtain rfl := Host.Outcome.next.inj h
  refine State.Moves.then (.of_shown ?_) (State.shown_transmit _)
  unfold State.changeTriggerLine
  simp only
  split
  · rw [State.shown_triggerArrival]; rfl
  · rfl

theorem State.Moves.execHoldRaise {s t : State} {target : HoldTarget}
    (h : execHoldRaise target s = .next t) : s.Moves t := by
  refine .event h ?_
  split
  · exact (State.Moves.catchUpAt s target _).then (State.shown_raiseEvent _ _)
  · exact .refl s

theorem State.Moves.execHoldDrop {s t : State} {target : HoldTarget}
    (h : execHoldDrop target s = .next t) : s.Moves t := by
  refine .event h ?_
  split
  · exact (State.Moves.catchUpAt s target _).trans (.dropEvent _ _)
  · exact .refl s

theorem State.Moves.execSamplePeriod {s t : State} {c : Chan} (h : execSamplePeriod c s = .next t) :
    s.Moves t := by
  refine .event h ?_
  split
  · exact .refl s
  · simp only
    split
    · exact (State.Moves.catchUp s c _).trans (.periodEvent _ c)
    · exact .catchUp s c _

theorem State.Moves.execTimerExpiry {s t : State} {c : Chan} (h : execTimerExpiry c s = .next t) :
    s.Moves t := by
  refine .event h (.of_shown ?_)
  split
  · exact s.shown_tapEvent _
  · rfl

theorem State.Moves.execImportPageComplete {s t : State} {n : Nat} {data : List Byte}
    (h : execImportPageComplete n data s = .next t) : s.Moves t := by
  refine .event h ?_
  split
  · rename_i hrec _
    split
    · exact .completePage data hrec
    · exact .refl s
  · exact .refl s

theorem State.Moves.execWalkIntervalExpiry {s t : State} (h : execWalkIntervalExpiry s = .next t) :
    s.Moves t := by
  refine .event h (.of_shown ?_)
  split
  · exact s.shown_tapEvent _
  · rfl

theorem State.Moves.execScanReadComplete {s t : State} {n : Nat}
    (h : execScanReadComplete n s = .next t) : s.Moves t := by
  refine .event h ?_
  split
  · split
    · exact (State.Moves.compareRead s _).then (State.shown_endVisit _)
    · exact .refl s
  · exact .refl s

theorem State.Moves.execPageDecay {s t : State} {page : BitVec 15} {data : List Byte}
    (h : execPageDecay page data s = .next t) : s.Moves t := by
  obtain rfl := Host.Outcome.next.inj h
  refine State.Moves.then ?_ (State.shown_transmit _)
  split
  · exact .refl s
  · exact .decayPage data page.isLt

/-- Every command is a chain of moves. -/
theorem State.Moves.exec {s t : State} (i : Instr) (h : exec i s = .next t) : s.Moves t := by
  cases i
  case receiveCharacter => exact .execReceiveCharacter h
  case linkGapTimeout => exact .event (f := State.linkGap) h (.of_shown s.shown_linkGap)
  case requestHandOn => exact .event (f := State.handOnNext) h (.handOnNext s)
  case frameSent => exact .event (f := State.completeSending) h (.completeSending s)
  case standbyBegin => exact .execStandbyBegin h
  case engineResetPerformed => exact .execEngineResetPerformed h
  case powerOnReset => exact .execPowerOnReset h
  case resetLine => exact .execResetLine h
  case guardEnableChange high =>
    obtain rfl := Host.Outcome.next.inj h
    exact .of_shown rfl
  case pauseLineChange => exact .execPauseLineChange h
  case triggerLineChange => exact .execTriggerLineChange h
  case lockAcquired => exact .event (f := State.lockAcquired) h (.of_shown s.shown_lockAcquired)
  case lockTimeoutExpiry =>
    exact .event (f := fun s => (s.taken .lockTimeoutExpiry).lockTimeoutExpired) h
      (.of_shown ((State.shown_lockTimeoutExpired _).trans (s.shown_taken _)))
  case referenceLost => exact .event (f := State.referenceLost) h (.of_shown s.shown_referenceLost)
  case transferDone => exact .event (f := State.transferDone) h (.of_shown s.shown_transferDone)
  case holdRaise => exact .execHoldRaise h
  case holdDrop => exact .execHoldDrop h
  case samplePeriod => exact .execSamplePeriod h
  case timeBaseTap k => exact .event (f := fun s => s.tapEvent k) h (.of_shown (s.shown_tapEvent k))
  case timerExpiry => exact .execTimerExpiry h
  case operandChange c =>
    exact .event (f := fun s => (s.catchUp c (.operandChange c)).changeEvent c) h
      ((State.Moves.catchUp s c _).trans (.changeEvent _ c))
  case importPageComplete => exact .execImportPageComplete h
  case walkIntervalExpiry => exact .execWalkIntervalExpiry h
  case scanReadComplete => exact .execScanReadComplete h
  case resetLineRelease => exact .execResetLineRelease h
  case pageDecay => exact .execPageDecay h
  all_goals exact .request rfl h

/-- A step of the machine is a chain of moves. -/
theorem State.Moves.step {s t : State} (h : step s = .next t) : s.Moves t := by
  unfold Machine.step at h
  split at h
  · rename_i c rest _
    exact .after (t := { s with pending := rest }) rfl (.exec c h)
  · unfold idle at h
    split at h
    · exact .exec _ h
    · obtain rfl := Host.Outcome.next.inj h
      exact .of_shown s.shown_tick

/-! ### The invariant of pages -/

theorem State.PagesWf.move {s t : State} (hs : s.PagesWf) (h : PageMove s t) : t.PagesWf := by
  cases h with
  | images u hu hp => exact (hs.imageStep hu).of_pages hp
  | ends c q _ hp => exact (hs.release q.serial).of_pages hp
  | begins c h i hcur _ hp => exact (hs.takeReference hcur).of_pages hp
  | resets m w hm hp =>
    refine State.PagesWf.of_pages (s := { State.reset with
      imagesMade := s.imagesMade, memory := m, checkWords := w }) hp (.of_empty rfl rfl rfl rfl rfl ?_ ?_)
    · rcases hm with ⟨rfl, -⟩ | ⟨rfl, -⟩
      · exact hs.memory
      · rfl
    · rcases hm with ⟨-, rfl⟩ | ⟨-, rfl⟩
      · exact hs.checkWords
      · exact ⟨rfl, fun e he => (by cases he)⟩

theorem State.PagesWf.moves {s t : State} (hs : s.PagesWf) (h : s.Moves t) : t.PagesWf := by
  induction h with
  | refl => exact hs
  | tail _ hm ih => exact ih.move hm

end Sys2Proof.Machine

namespace Sys2Proof.Proofs
open Machine

/-- Settles O54: a step is a chain of moves, and every move keeps the invariant of pages. -/
theorem everyPageHasOneOwner : Obligations.EveryPageHasOneOwner := by
  intro s t hs h
  exact hs.moves (.step h)

end Sys2Proof.Proofs
end

section
/-!
References: the counts of the live images against the claims of the channels, over a list of what each record
says (`Tally`), and that every move keeps them.
-/
namespace Sys2Proof.Machine

/-! ### A serial that no live image has (R5) -/

/-- R5: with fewer live images than serials, the serial given is none of theirs. -/
theorem freshSerial_not_mem {live : List Nat} {n : Nat} (h1 : 1 ≤ n) (h2 : n ≤ 65535)
    (hl : live.length < 65535) : freshSerial live live.length n ∉ live := by
  obtain ⟨j, hj, he, hbefore, hfree⟩ := freshSerial_spec live live.length n h1 h2
  rcases Nat.lt_or_eq_of_le hj with hlt | rfl
  · exact hfree hlt
  · have hinj : ∀ a b, a < 65535 → b < 65535 →
        (n - 1 + a) % 65535 + 1 = (n - 1 + b) % 65535 + 1 → a = b := fun a b ha hb hab => by omega
    have hnodup : ((List.range live.length).map fun i => (n - 1 + i) % 65535 + 1).Nodup :=
      List.Nodup.map_on (fun a ha b hb hab => hinj a b (by have := List.mem_range.mp ha; omega)
        (by have := List.mem_range.mp hb; omega) hab) List.nodup_range
    have hsub : ((List.range live.length).map fun i => (n - 1 + i) % 65535 + 1) ⊆ live := by
      intro x hx
      obtain ⟨i, hi, rfl⟩ := List.mem_map.mp hx
      exact hbefore i (List.mem_range.mp hi)
    have hperm := (hnodup.subperm hsub).perm_of_length_le (by simp)
    rw [he]
    intro hm
    obtain ⟨i, hi, hi'⟩ := List.mem_map.mp (hperm.mem_iff.mpr hm)
    have hil := List.mem_range.mp hi
    have := hinj i live.length (by omega) hl hi'
    omega

theorem freshSerial_range {live : List Nat} {n : Nat} (h1 : 1 ≤ n) (h2 : n ≤ 65535) :
    1 ≤ freshSerial live live.length n ∧ freshSerial live live.length n ≤ 65535 := by
  obtain ⟨j, -, he, -⟩ := freshSerial_spec live live.length n h1 h2
  omega

/-! ### Claims of the channels -/

/-- How many channels claim the image of a serial. -/
def claimants (f : Chan → Option Claim) (serial : Nat) : Nat :=
  allChannels.countP fun c => ((f c).map Claim.serial) == some serial

theorem claimants_pos {f : Chan → Option Claim} {c : Chan} {q : Claim} (h : f c = some q) :
    0 < claimants f q.serial :=
  List.countP_pos_iff.mpr ⟨c, mem_allChannels c, by simp [h]⟩

theorem claimants_eq_zero {f : Chan → Option Claim} {n : Nat}
    (h : ∀ c q, f c = some q → q.serial ≠ n) : claimants f n = 0 := by
  refine List.countP_eq_zero.mpr fun c _ => ?_
  cases hf : f c with
  | none => simp
  | some q => simpa using h c q hf

/-- The claimants after one channel's claim has changed. -/
theorem claimants_update (f : Chan → Option Claim) (c : Chan) (x : Option Claim) (n : Nat) :
    claimants (Function.update f c x) n + (if (f c).map Claim.serial = some n then 1 else 0) =
      claimants f n + if x.map Claim.serial = some n then 1 else 0 := by
  have hperm := List.perm_cons_erase (mem_allChannels c)
  have hrest : ((allChannels.erase c).countP fun d => ((Function.update f c x d).map Claim.serial) == some n) =
      (allChannels.erase c).countP fun d => ((f d).map Claim.serial) == some n :=
    List.countP_congr fun d hd => by
      have hne : d ≠ c := ((List.Nodup.mem_erase_iff nodup_allChannels).mp hd).1
      rw [Function.update_of_ne hne]
  unfold claimants
  rw [hperm.countP_eq, hperm.countP_eq, List.countP_cons, List.countP_cons, hrest,
    Function.update_self]
  simp only [beq_iff_eq]
  omega

/-! ### Tallies -/

/-- What an image record says of its references, and what names it. -/
structure Tally where
  ident : Nat
  refs : Nat
  claim : Claim

def Image.tally (i : Image) : Tally := ⟨i.ident, i.refs, i.claim⟩

/-- R5, R36: the records are distinct and among those made, their serials are distinct and in their range,
each count is that of the channels which claim the record, and what a channel claims is a record. -/
structure Referred (ts : List Tally) (made : Nat) (f : Chan → Option Claim) : Prop where
  records : (ts.map Tally.ident).Nodup
  made : ∀ t ∈ ts, t.ident < made
  distinct : (ts.map fun t => t.claim.serial).Nodup
  range : ∀ t ∈ ts, 1 ≤ t.claim.serial ∧ t.claim.serial ≤ 65535
  counts : ∀ t ∈ ts, t.refs = claimants f t.claim.serial
  plays : ∀ c q, f c = some q → ∃ t ∈ ts, t.claim = q

theorem Referred.nil (made : Nat) {f : Chan → Option Claim} (hf : ∀ c, f c = none) : Referred [] made f where
  records := List.nodup_nil
  made := fun t ht => by cases ht
  distinct := List.nodup_nil
  range := fun t ht => by cases ht
  counts := fun t ht => by cases ht
  plays := fun c q hq => by rw [hf c] at hq; cases hq

theorem Referred.perm {ts us : List Tally} {made : Nat} {f : Chan → Option Claim} (h : ts.Perm us)
    (hr : Referred ts made f) : Referred us made f where
  records := (h.map _).nodup_iff.mp hr.records
  made := fun t ht => hr.made t (h.mem_iff.mpr ht)
  distinct := (h.map _).nodup_iff.mp hr.distinct
  range := fun t ht => hr.range t (h.mem_iff.mpr ht)
  counts := fun t ht => hr.counts t (h.mem_iff.mpr ht)
  plays := fun c q hq => by
    obtain ⟨t, ht, he⟩ := hr.plays c q hq
    exact ⟨t, h.mem_iff.mp ht, he⟩

/-- A new record with a new number and a new serial has no claimant. -/
theorem Referred.created {ts : List Tally} {made : Nat} {f : Chan → Option Claim} (hr : Referred ts made f)
    {t : Tally} (hi : t.ident = made) (h0 : t.refs = 0)
    (hrange : 1 ≤ t.claim.serial ∧ t.claim.serial ≤ 65535)
    (hnew : t.claim.serial ∉ ts.map fun t => t.claim.serial) : Referred (t :: ts) (made + 1) f where
  records := by
    refine List.nodup_cons.mpr ⟨fun hm => ?_, hr.records⟩
    obtain ⟨u, hu, he⟩ := List.mem_map.mp hm
    have := hr.made u hu
    omega
  made := by
    refine List.forall_mem_cons.mpr ⟨by omega, fun u hu => ?_⟩
    have := hr.made u hu
    omega
  distinct := List.nodup_cons.mpr ⟨hnew, hr.distinct⟩
  range := List.forall_mem_cons.mpr ⟨hrange, hr.range⟩
  counts := by
    refine List.forall_mem_cons.mpr ⟨?_, hr.counts⟩
    rw [h0]
    refine (claimants_eq_zero fun c q hq he => hnew ?_).symm
    obtain ⟨u, hu, rfl⟩ := hr.plays c q hq
    exact List.mem_map.mpr ⟨u, hu, he⟩
  plays := fun c q hq => by
    obtain ⟨u, hu, he⟩ := hr.plays c q hq
    exact ⟨u, List.mem_cons_of_mem _ hu, he⟩

/-- A record without references goes. -/
theorem Referred.dropped {ts : List Tally} {t : Tally} {made : Nat} {f : Chan → Option Claim}
    (hr : Referred (t :: ts) made f) (h0 : t.refs = 0) : Referred ts made f where
  records := (List.nodup_cons.mp hr.records).2
  made := (List.forall_mem_cons.mp hr.made).2
  distinct := (List.nodup_cons.mp hr.distinct).2
  range := (List.forall_mem_cons.mp hr.range).2
  counts := (List.forall_mem_cons.mp hr.counts).2
  plays := fun c q hq => by
    obtain ⟨u, hu, rfl⟩ := hr.plays c q hq
    rcases List.mem_cons.mp hu with rfl | hu
    · have hcount := hr.counts u (List.mem_cons_self ..)
      have hpos := claimants_pos hq
      omega
    · exact ⟨u, hu, rfl⟩

/-- One reference fewer on the record of a serial. -/
def Tally.released (serial : Nat) (t : Tally) : Tally :=
  if t.claim.serial = serial then { t with refs := t.refs - 1 } else t

@[simp] theorem Tally.released_ident (n : Nat) (t : Tally) : (t.released n).ident = t.ident := by
  unfold Tally.released
  split <;> rfl

@[simp] theorem Tally.released_claim (n : Nat) (t : Tally) : (t.released n).claim = t.claim := by
  unfold Tally.released
  split <;> rfl

theorem Image.tally_released (n : Nat) (i : Image) : (i.released n).tally = i.tally.released n := by
  by_cases h : i.serial = n <;> simp [Image.released, Tally.released, Image.tally, Image.claim, h]

/-- R35: a claim ends, and its record's count goes down by one. -/
theorem Referred.released {ts : List Tally} {made : Nat} {f : Chan → Option Claim} (hr : Referred ts made f)
    {c : Chan} {q : Claim} (hq : f c = some q) :
    Referred (ts.map (Tally.released q.serial)) made (Function.update f c none) where
  records := by simpa [List.map_map, Function.comp_def] using hr.records
  made := by simpa using hr.made
  distinct := by simpa [List.map_map, Function.comp_def] using hr.distinct
  range := by simpa using hr.range
  counts := by
    refine List.forall_mem_map.mpr fun t ht => ?_
    have hcount := hr.counts t ht
    have hupdate := claimants_update f c none t.claim.serial
    rw [hq] at hupdate
    rw [Tally.released_claim]
    unfold Tally.released
    split
    · rename_i he
      rw [if_pos (by rw [he]; rfl), if_neg (by simp)] at hupdate
      simp only
      omega
    · rename_i he
      rw [if_neg (by simpa using fun h => he h.symm), if_neg (by simp)] at hupdate
      omega
  plays := fun d p hp => by
    by_cases hd : d = c
    · rw [hd, Function.update_self] at hp
      cases hp
    · rw [Function.update_of_ne hd] at hp
      obtain ⟨t, ht, he⟩ := hr.plays d p hp
      exact ⟨t.released q.serial, List.mem_map_of_mem ht, by rw [Tally.released_claim, he]⟩

/-- R34: a claim begins, and its record's count goes up by one. -/
theorem Referred.taken {ts : List Tally} {t : Tally} {made : Nat} {f : Chan → Option Claim}
    (hr : Referred (t :: ts) made f) {c : Chan} (hc : f c = none) :
    Referred ({ t with refs := t.refs + 1 } :: ts) made (Function.update f c (some t.claim)) where
  records := hr.records
  made := List.forall_mem_cons.mpr ⟨(List.forall_mem_cons.mp hr.made).1, (List.forall_mem_cons.mp hr.made).2⟩
  distinct := hr.distinct
  range := List.forall_mem_cons.mpr ⟨(List.forall_mem_cons.mp hr.range).1, (List.forall_mem_cons.mp hr.range).2⟩
  counts := by
    obtain ⟨hfirst, hrest⟩ := List.forall_mem_cons.mp hr.counts
    have hnew := (List.nodup_cons.mp hr.distinct).1
    refine List.forall_mem_cons.mpr ⟨?_, fun u hu => ?_⟩
    · have hupdate := claimants_update f c (some t.claim) t.claim.serial
      simp only [hc, Option.map_none, Option.map_some, reduceCtorEq, if_false, if_true] at hupdate
      simp only
      omega
    · have hcount := hrest u hu
      have hupdate := claimants_update f c (some t.claim) u.claim.serial
      have hne : t.claim.serial ≠ u.claim.serial := fun he =>
        hnew (List.mem_map.mpr ⟨u, hu, he.symm⟩)
      rw [hc, if_neg (by simp), if_neg (by simpa using hne)] at hupdate
      omega
  plays := fun d p hp => by
    by_cases hd : d = c
    · rw [hd, Function.update_self] at hp
      cases hp
      exact ⟨_, List.mem_cons_self .., rfl⟩
    · rw [Function.update_of_ne hd] at hp
      obtain ⟨u, hu, rfl⟩ := hr.plays d p hp
      rcases List.mem_cons.mp hu with rfl | hu
      · exact ⟨_, List.mem_cons_self .., rfl⟩
      · exact ⟨u, List.mem_cons_of_mem _ hu, rfl⟩

/-! ### The invariant of references, at the handles and the seats -/

def State.claims (s : State) (c : Chan) : Option Claim := (s.seat c).claim

/-- The invariant of references, said of tallies and handles, for claims `f`. -/
structure State.RefsWf (s : State) (f : Chan → Option Claim) : Prop where
  referred : Referred (s.liveImages.map Image.tally) s.imagesMade f
  counter : 1 ≤ s.serialCounter ∧ s.serialCounter ≤ 65535
  incoming : ∀ h i, (s.handle h).incoming = some i → i.refs = 0
  retired : ∀ e ∈ s.retired, 0 < e.image.refs

theorem State.players_eq (s : State) (n : Nat) : s.players n = claimants s.claims n := by
  unfold State.players claimants
  rw [List.countP_eq_length_filter]
  simp only [State.claims, State.seat, Engine.seat, State.playOf, Option.map_map]
  rfl

theorem State.listed.referencesWf_iff {s : State} (hl : s.listed) : s.ReferencesWf ↔ s.RefsWf s.claims := by
  have hincoming : (∀ e ∈ s.handles, ∀ i, e.2.incoming = some i → i.refs = 0) ↔
      ∀ h i, (s.handle h).incoming = some i → i.refs = 0 := by
    rw [hl.forall_mem (P := fun _ r => ∀ i, r.incoming = some i → i.refs = 0)]
    refine ⟨fun hp h i hi => hp h (fun hn => ?_) i hi, fun hp h _ => hp h⟩
    rw [hn] at hi; cases hi
  have hplays : (∀ c p, s.playOf c = some p → ∃ i ∈ s.liveImages, i.serial = p.serial ∧
      i.firstPage = p.firstPage ∧ i.pageCount = p.pageCount ∧ i.sampleLength = p.sampleLength) ↔
      ∀ c q, s.claims c = some q → ∃ t ∈ s.liveImages.map Image.tally, t.claim = q := by
    simp only [State.claims, State.claim_eq_some, List.mem_map, exists_exists_and_eq_and]
    constructor
    · rintro hp c q ⟨p, hc, rfl⟩
      obtain ⟨i, hi, h1, h2, h3, h4⟩ := hp c p hc
      exact ⟨i, hi, by simp [Image.tally, Image.claim, PlayRecord.claim, h1, h2, h3, h4]⟩
    · intro hp c p hc
      obtain ⟨i, hi, he⟩ := hp c p.claim ⟨p, hc, rfl⟩
      obtain ⟨h1, h2, h3, h4⟩ := Claim.mk.inj he
      exact ⟨i, hi, h1, h2, h3, h4⟩
  constructor
  · intro h
    refine ⟨⟨?_, ?_, ?_, ?_, ?_, hplays.mp h.plays⟩, h.counter, hincoming.mp h.incoming, h.retired⟩
    · rw [List.map_map]; exact h.records.1
    · exact List.forall_mem_map.mpr h.records.2
    · rw [List.map_map]; exact h.distinct
    · exact List.forall_mem_map.mpr h.range
    · exact List.forall_mem_map.mpr fun i hi => (h.counts i hi).trans (s.players_eq _)
  · intro h
    have hr := h.referred
    refine ⟨⟨?_, ?_⟩, ?_, ?_, h.counter, ?_, hincoming.mpr h.incoming, h.retired, hplays.mpr hr.plays⟩
    · have := hr.records; rwa [List.map_map] at this
    · exact List.forall_mem_map.mp hr.made
    · have := hr.distinct; rwa [List.map_map] at this
    · exact List.forall_mem_map.mp hr.range
    · exact fun i hi => (List.forall_mem_map.mp hr.counts i hi).trans (s.players_eq _).symm

end Sys2Proof.Machine
end

section
/-!
Every move keeps the references, and the statement about them.
-/
namespace Sys2Proof.Machine

/-! ### Records that change in nothing that is counted -/

theorem State.RefsWf.of_pages {s t : State} {f : Chan → Option Claim} (h : t.pages = s.pages)
    (hs : s.RefsWf f) : t.RefsWf f := by
  have hp : t.pages.RefsWf f := by
    rw [h]
    exact ⟨hs.referred, hs.counter, hs.incoming, hs.retired⟩
  exact ⟨hp.referred, hp.counter, hp.incoming, hp.retired⟩

theorem State.RefsWf.retallied {s t : State} {f : Chan → Option Claim} (hs : s.RefsWf f)
    (hl : (s.liveImages.map Image.tally).Perm (t.liveImages.map Image.tally))
    (hm : t.imagesMade = s.imagesMade) (hc : t.serialCounter = s.serialCounter)
    (hin : ∀ h i, (t.handle h).incoming = some i → i.refs = 0)
    (hr : ∀ e ∈ t.retired, 0 < e.image.refs) : t.RefsWf f :=
  ⟨hm ▸ hs.referred.perm hl, hc ▸ hs.counter, hin, hr⟩

/-- A live image without references has gone. -/
theorem State.RefsWf.dropped {s t : State} {f : Chan → Option Claim} (hs : s.RefsWf f) {i : Image}
    (hl : (s.liveImages.map Image.tally).Perm (i.tally :: t.liveImages.map Image.tally)) (h0 : i.refs = 0)
    (hm : t.imagesMade = s.imagesMade) (hc : t.serialCounter = s.serialCounter)
    (hin : ∀ h j, (t.handle h).incoming = some j → j.refs = 0)
    (hr : ∀ e ∈ t.retired, 0 < e.image.refs) : t.RefsWf f :=
  ⟨hm ▸ (hs.referred.perm hl).dropped h0, hc ▸ hs.counter, hin, hr⟩

/-- The incoming images after a write of one handle. -/
theorem State.RefsWf.incoming_written {s t : State} {f : Chan → Option Claim} (hs : s.RefsWf f)
    (hl : s.listed) {h : Nat} {r : HandleRecord} (ht : t.handles = (s.setHandle h r).handles)
    (hr : ∀ i, r.incoming = some i → i.refs = 0) :
    ∀ k i, (t.handle k).incoming = some i → i.refs = 0 := by
  intro k i hi
  have hk : t.handle k = (s.setHandle h r).handle k := by simp only [State.handle, ht]
  rw [hk, hl.handle_setHandle] at hi
  split at hi
  · exact hr i hi
  · exact hs.incoming k i hi

theorem State.liveImages_congr {s t : State} (hh : t.handles = s.handles) (hr : t.retired = s.retired) :
    t.liveImages = s.liveImages := by simp only [State.liveImages, hh, hr]

/-- An incoming image whose record changes in nothing that is counted. -/
theorem State.RefsWf.refilled {s t : State} {f : Chan → Option Claim} (hs : s.RefsWf f) (hl : s.listed)
    {h : Nat} {i j : Image} (hin : (s.handle h).incoming = some i) (hj : j.tally = i.tally)
    (hh : t.handles = (s.setHandle h { s.handle h with incoming := some j }).handles)
    (hr : t.retired = s.retired) (hm : t.imagesMade = s.imagesMade)
    (hc : t.serialCounter = s.serialCounter) : t.RefsWf f := by
  refine hs.retallied ?_ hm hc (hs.incoming_written hl hh fun k hk => ?_) (hr ▸ hs.retired)
  · rw [State.liveImages_congr (s := s.setHandle h { s.handle h with incoming := some j }) hh hr]
    refine (hl.map_setHandle _ ?_).symm
    simp only [HandleRecord.images, hin, Option.toList_some, List.map_append, List.map_cons, hj]
    exact List.Perm.refl _
  · cases hk
    have hrefs : j.refs = i.refs := congrArg Tally.refs hj
    exact hrefs.trans (hs.incoming h i hin)

theorem State.RefsWf.mapImages {s : State} {f : Chan → Option Claim} (hs : s.RefsWf f) {g : Image → Image}
    (hg : ∀ i, (g i).tally = i.tally) : (s.mapImages g).RefsWf f := by
  have hrefs : ∀ i, (g i).refs = i.refs := fun i => congrArg Tally.refs (hg i)
  refine hs.retallied ?_ rfl rfl (fun h i hi => ?_) fun e he => ?_
  · rw [State.liveImages_mapImages, List.map_map]
    exact (List.map_congr_left fun i _ => (hg i).symm) ▸ List.Perm.refl _
  · rw [State.handle_mapImages] at hi
    obtain ⟨j, hj, rfl⟩ := Option.map_eq_some_iff.mp hi
    rw [hrefs]
    exact hs.incoming h j hj
  · obtain ⟨e', he', rfl⟩ := List.mem_map.mp he
    exact (hrefs _).symm ▸ hs.retired e' he'

theorem Image.tally_marked (ident page : Nat) (i : Image) : (i.marked ident page).tally = i.tally := by
  unfold Image.marked
  split
  · split <;> rfl
  · rfl

/-! ### Image steps -/

theorem serialAfter_range {n : Nat} (h : 1 ≤ n ∧ n ≤ 65535) : 1 ≤ serialAfter n ∧ serialAfter n ≤ 65535 := by
  unfold serialAfter
  split <;> omega

/-- R5: a new image has a number and a serial of its own, and no reference. -/
theorem State.RefsWf.created {s u : State} {f : Chan → Option Claim} (hs : s.RefsWf f) (hp : s.PagesWf)
    {h n : Nat} {source : FillSource} {flag : Bool} {i : Image} (hin : (s.handle h).incoming = none)
    (hc : s.createImage h n source flag = some (i, u)) : u.RefsWf f := by
  have hl := (hp.liveImages_created hin hc).map Image.tally
  obtain ⟨-, hk⟩ := hp.handle_created hc
  obtain ⟨first, free, -, hi, hu⟩ := State.createImage_some hc
  have hserial : i.serial = freshSerial (s.liveImages.map Image.serial) (s.liveImages.map Image.serial).length
      s.serialCounter := by rw [hi, List.length_map]
  have hlen : (s.liveImages.map Image.serial).length < 65535 := by
    rw [List.length_map]
    exact Nat.lt_of_le_of_lt hp.length_liveImages_le (by decide)
  have hrange : 1 ≤ i.serial ∧ i.serial ≤ 65535 := hserial ▸ freshSerial_range hs.counter.1 hs.counter.2
  have hnew : i.serial ∉ s.liveImages.map Image.serial :=
    hserial ▸ freshSerial_not_mem hs.counter.1 hs.counter.2 hlen
  have h0 : i.refs = 0 := by rw [hi]
  refine ⟨?_, ?_, fun k j hj => ?_, ?_⟩
  · have hmade : u.imagesMade = s.imagesMade + 1 := by rw [hu]; rfl
    rw [hmade]
    refine (hs.referred.created (t := i.tally) (by rw [hi]; rfl) h0 hrange ?_).perm hl.symm
    rwa [List.map_map]
  · have hcounter : u.serialCounter = serialAfter i.serial := by rw [hu]; rfl
    rw [hcounter]
    exact serialAfter_range hrange
  · rw [hk] at hj
    split at hj
    · cases hj; exact h0
    · exact hs.incoming k j hj
  · rw [hu]; exact hs.retired

theorem State.RefsWf.binds {s : State} {f : Chan → Option Claim} (hs : s.RefsWf f) (hl : s.listed)
    {h : Nat} {i : Image} (hcur : (s.handle h).current = none) (hin : (s.handle h).incoming = some i) :
    (s.setHandle h ⟨some i, none⟩).RefsWf f := by
  refine hs.retallied (hl.map_setHandle _ ?_).symm rfl rfl
    (hs.incoming_written hl rfl fun j hj => by cases hj) hs.retired
  simp [HandleRecord.images, hin, hcur]

theorem State.RefsWf.leaves {s : State} {f : Chan → Option Claim} (hs : s.RefsWf f) (hl : s.listed)
    {h : Nat} {old : Image} (hcur : (s.handle h).current = some old) :
    ((s.setHandle h ⟨(s.handle h).incoming, none⟩).dispose h old).2.RefsWf f := by
  have hbefore : (s.liveImages.map Image.tally).Perm (old.tally ::
      (s.setHandle h ⟨(s.handle h).incoming, none⟩).liveImages.map Image.tally) := by
    refine ((s.liveImages_perm h).map _).trans (List.Perm.trans ?_
      (((hl.liveImages_setHandle h ⟨(s.handle h).incoming, none⟩).symm.map Image.tally).cons _))
    simp [HandleRecord.images, hcur]
  have hin := hs.incoming_written (t := s.setHandle h ⟨(s.handle h).incoming, none⟩) hl rfl
    fun j hj => by cases hj
  by_cases h0 : old.refs = 0
  · rw [State.dispose, if_pos h0]
    exact hs.dropped (t := ((s.setHandle h ⟨(s.handle h).incoming, none⟩).returnPages old).notify _)
      hbefore h0 rfl rfl hin hs.retired
  · rw [State.dispose, if_neg h0]
    have hold : old.asRetired.tally = old.tally := by
      unfold Image.asRetired
      split <;> rfl
    refine hs.retallied ?_ rfl rfl hin fun e he => ?_
    · refine hbefore.trans ?_
      simp only [State.liveImages, State.setHandle_retired, List.map_append, List.map_cons, hold,
        List.map_nil, ← List.append_assoc]
      exact (List.perm_append_singleton _ _).symm
    · rcases List.mem_append.mp he with he | he
      · exact hs.retired e he
      · rw [List.mem_singleton.mp he]
        have hrefs : old.asRetired.refs = old.refs := congrArg Tally.refs hold
        simp only [hrefs]
        omega

theorem State.RefsWf.discarded {s : State} {f : Chan → Option Claim} (hs : s.RefsWf f) (hl : s.listed)
    (h : Nat) : (s.discardIncoming h).RefsWf f := by
  unfold State.discardIncoming
  split
  · exact hs
  · rename_i i hin
    refine hs.dropped (t := (s.setHandle h { s.handle h with incoming := none }).returnPages i) ?_
      (hs.incoming h i hin) rfl rfl (hs.incoming_written hl rfl fun j hj => by cases hj) hs.retired
    refine ((s.liveImages_perm h).map _).trans (List.Perm.trans ?_
      (((hl.liveImages_setHandle h { s.handle h with incoming := none }).symm.map Image.tally).cons _))
    simp only [HandleRecord.images, hin, Option.toList_some, Option.toList_none, List.append_nil,
      List.map_append, List.map_cons, List.append_assoc, List.singleton_append]
    exact List.perm_middle

/-- R5, R36: no image step changes what is counted, but for images without references. -/
theorem State.RefsWf.imageStep {s u : State} {f : Chan → Option Claim} (hs : s.RefsWf f) (hp : s.PagesWf)
    (h : ImageStep s u) : u.RefsWf f := by
  cases h with
  | none => exact hs
  | creates _ _ hin hc => exact hs.created hp hin hc
  | imports _ _ _ hin hc =>
    have hc := hs.created hp hin hc
    exact ⟨hc.referred, hc.counter, hc.incoming, hc.retired⟩
  | @writes h k i data hin ht _ =>
    obtain ⟨⟨c, w, hph⟩, -⟩ := i.takesRequests_iff.mp ht
    rw [s.writeImagePage_loading h k data hph]
    exact hs.refilled hp.listed (j := { i with phase := .loading c (insertIndex k w) }) hin rfl rfl rfl rfl rfl
  | @importsPage r i data hrec hin _ =>
    obtain ⟨-, ⟨c, hph⟩, -⟩ := hp.fills_of hrec hin
    rw [s.writeImagePage_loading r.handle r.nextPage data hph]
    exact hs.refilled hp.listed
      (j := { i with phase := .loading c (insertIndex r.nextPage (List.range r.nextPage)) }) hin rfl rfl rfl rfl rfl
  | @importsWhole r i data hrec hin =>
    obtain ⟨-, ⟨c, hph⟩, -⟩ := hp.fills_of hrec hin
    have hls : (s.storePage (i.firstPage + r.nextPage) (i.pageContents r.nextPage data)).listed := hp.listed
    simp only [State.importedWhole, s.writeImagePage_loading r.handle r.nextPage data hph]
    rw [hls.setHandle_setHandle, hls.handle_setHandle, if_pos rfl]
    exact hs.refilled hp.listed (j := State.readied _ i) hin rfl rfl rfl rfl rfl
  | @readies h i hin _ => exact hs.refilled hp.listed (j := s.readied i) hin rfl rfl rfl rfl rfl
  | binds hcur hin _ => exact hs.binds hp.listed hcur hin
  | leaves hcur _ _ => exact hs.leaves hp.listed hcur
  | discards _ => exact hs.discarded hp.listed _
  | cancels cause =>
    unfold State.cancelImport
    split
    · exact hs
    · refine State.RefsWf.discarded ?_ ?_ _
      · exact ⟨hs.referred, hs.counter, hs.incoming, hs.retired⟩
      · exact hp.listed
  | marks ident page => exact hs.mapImages (Image.tally_marked ident page)
  | decays _ _ => exact ⟨hs.referred, hs.counter, hs.incoming, hs.retired⟩

/-! ### References begun and ended -/

/-- R34: a PLAY step's claim. -/
theorem State.RefsWf.takeReference {s : State} {f : Chan → Option Claim} (hs : s.RefsWf f) (hl : s.listed)
    {h : Nat} {i : Image} (hcur : (s.handle h).current = some i) {c : Chan} (hc : f c = none) :
    (s.takeReference h i).RefsWf (Function.update f c (some i.claim)) := by
  have hbefore : (s.liveImages.map Image.tally).Perm
      (i.tally :: ((s.handle h).incoming.toList ++ s.others h).map Image.tally) := by
    refine ((s.liveImages_perm h).map _).trans ?_
    simp [HandleRecord.images, hcur]
  have hafter : ((s.takeReference h i).liveImages.map Image.tally).Perm
      ({ i.tally with refs := i.refs + 1 } ::
        ((s.handle h).incoming.toList ++ s.others h).map Image.tally) := by
    refine ((hl.liveImages_setHandle h _).map _).trans ?_
    simp [HandleRecord.images, Image.tally, Image.claim]
  exact ⟨(Referred.taken (hs.referred.perm hbefore) hc).perm hafter.symm, hs.counter,
    hs.incoming_written hl rfl fun j hj => hs.incoming h j hj, hs.retired⟩

/-- The live images have serials of their own. -/
theorem Referred.serials_nodup {l : List Image} {made : Nat} {f : Chan → Option Claim}
    (h : Referred (l.map Image.tally) made f) : (l.map Image.serial).Nodup := by
  have := h.distinct
  rwa [List.map_map] at this

/-- A list without repeated keys holds a key once. -/
theorem ne_of_mem_erase_of_nodup_map {α β : Type} [DecidableEq α] (g : α → β) {l : List α} {a b : α}
    (h : (l.map g).Nodup) (ha : a ∈ l) (hb : b ∈ l.erase a) : g b ≠ g a := by
  have hn := ((List.perm_cons_erase ha).map g).nodup_iff.mp h
  intro he
  exact (List.nodup_cons.mp hn).1 (List.mem_map.mpr ⟨b, hb, he⟩)

/-- R35: a channel's reference ends, and with it a RETIRED image that has none left. -/
theorem State.RefsWf.release {s : State} {f : Chan → Option Claim} (hs : s.RefsWf f) {c : Chan} {q : Claim}
    (hq : f c = some q) : (s.release q.serial).RefsWf (Function.update f c none) := by
  have hreferred : Referred ((s.mapImages (Image.released q.serial)).liveImages.map Image.tally)
      s.imagesMade (Function.update f c none) := by
    have hr := hs.referred.released hq
    rw [List.map_map] at hr
    rw [State.liveImages_mapImages, List.map_map]
    exact (List.map_congr_left fun i _ => Image.tally_released q.serial i) ▸ hr
  have hincoming : ∀ h i, ((s.mapImages (Image.released q.serial)).handle h).incoming = some i →
      i.refs = 0 := by
    intro h i hi
    rw [State.handle_mapImages] at hi
    obtain ⟨j, hj, rfl⟩ := Option.map_eq_some_iff.mp hi
    have h0 := hs.incoming h j hj
    unfold Image.released
    split
    · simp only [h0]
    · exact h0
  have hretired : ∀ e ∈ (s.mapImages (Image.released q.serial)).retired,
      e.image.serial ≠ q.serial → 0 < e.image.refs := by
    intro e he hne
    obtain ⟨e', he', rfl⟩ := List.mem_map.mp he
    have hpos := hs.retired e' he'
    unfold Image.released at hne ⊢
    split
    · rename_i h
      rw [if_pos h] at hne
      exact absurd h hne
    · exact hpos
  unfold State.release
  simp only
  split
  · rename_i hfind
    refine ⟨hreferred, hs.counter, hincoming, fun e he => ?_⟩
    by_cases hne : e.image.serial = q.serial
    · have hnot := List.find?_eq_none.mp hfind e he
      simp only [decide_eq_true_eq, not_and] at hnot
      exact Nat.pos_of_ne_zero (hnot hne)
    · exact hretired e he hne
  · rename_i e hfind
    have hmem := List.mem_of_find?_eq_some hfind
    have hprop := List.find?_some hfind
    simp only [decide_eq_true_eq] at hprop
    obtain ⟨hserial, h0⟩ := hprop
    have hperm : ((s.mapImages (Image.released q.serial)).liveImages.map Image.tally).Perm
        (e.image.tally :: (({ s.mapImages (Image.released q.serial) with
          retired := (s.mapImages (Image.released q.serial)).retired.erase e }).liveImages.map
            Image.tally)) := by
      refine ((List.Perm.append_left _ ((List.perm_cons_erase hmem).map RetiredEntry.image)).map
        Image.tally).trans ?_
      simp only [State.liveImages, List.map_append, List.map_cons]
      exact List.perm_middle
    refine ⟨(hreferred.perm hperm).dropped h0, hs.counter, hincoming, fun x hx => ?_⟩
    have hnodup : ((s.mapImages (Image.released q.serial)).retired.map fun e => e.image.serial).Nodup := by
      have := hreferred.serials_nodup
      rw [State.liveImages, List.map_append, List.map_map] at this
      exact (List.nodup_append.mp this).2.1
    exact hretired x (List.mem_of_mem_erase hx)
      (hserial ▸ ne_of_mem_erase_of_nodup_map (fun e => e.image.serial) hnodup hmem hx)

/-! ### Moves -/

/-- The two invariants, and that a channel outside its program claims nothing. -/
structure State.HeldWf (s : State) : Prop where
  pages : s.PagesWf
  refs : s.RefsWf s.claims
  idle : ∀ c, (s.seat c).inProgram = false → s.claims c = none

/-- The claims after a move at one channel. -/
theorem State.claims_update {s t : State} {c : Chan} {x : Option Claim} (ht : (t.seat c).claim = x)
    (ho : ∀ d, d ≠ c → t.seat d = s.seat d) : t.claims = Function.update s.claims c x := by
  funext d
  by_cases hd : d = c
  · rw [hd, Function.update_self]; exact ht
  · rw [Function.update_of_ne hd, State.claims, ho d hd]; rfl

theorem State.HeldWf.move {s t : State} (hs : s.HeldWf) (h : PageMove s t) : t.HeldWf := by
  refine ⟨hs.pages.move h, ?_, ?_⟩
  · cases h with
    | images u hu hp hq =>
      have hclaims : t.claims = s.claims := funext fun c => by
        rcases hq c with ⟨he, -⟩ | ⟨he, hn⟩
        · exact he
        · exact he.trans (hn.elim id fun hr => hs.idle c hr).symm
      rw [hclaims]
      exact (hs.refs.imageStep hs.pages hu).of_pages hp
    | ends c q hc hp ht ho =>
      rw [State.claims_update ht ho]
      exact (hs.refs.release hc).of_pages hp
    | begins c h i hcur hc hp ht ho =>
      rw [State.claims_update (congrArg Seat.claim ht) ho]
      exact (hs.refs.takeReference hs.pages.listed hcur hc).of_pages hp
    | resets m w hm hp ht =>
      refine State.RefsWf.of_pages (s := { State.reset with
        imagesMade := s.imagesMade, memory := m, checkWords := w }) hp
        ⟨Referred.nil _ fun c => congrArg Seat.claim (ht c), ⟨Nat.le_refl 1, (by decide : 1 ≤ 65535)⟩,
          fun h i hi => ?_, fun e he => ?_⟩
      · cases hi
      · cases he
  · intro c hr
    cases h with
    | images u hu hp hq =>
      rcases hq c with ⟨he, hstays⟩ | ⟨he, -⟩
      · refine he.trans (hs.idle c (Bool.eq_false_iff.mpr fun hin => ?_))
        rw [hstays hin] at hr
        cases hr
      · exact he
    | ends d q hc hp ht ho =>
      by_cases hd : c = d
      · rw [hd]; exact ht
      · rw [ho c hd] at hr
        rw [State.claims, ho c hd]
        exact hs.idle c hr
    | begins d h i hcur hc hp ht ho =>
      by_cases hd : c = d
      · rw [hd, ht] at hr; cases hr
      · rw [ho c hd] at hr
        rw [State.claims, ho c hd]
        exact hs.idle c hr
    | resets m w hm hp ht => exact congrArg Seat.claim (ht c)

theorem State.HeldWf.moves {s t : State} (hs : s.HeldWf) (h : s.Moves t) : t.HeldWf := by
  induction h with
  | refl => exact hs
  | tail _ hm ih => exact ih.move hm

theorem State.HeldWf.of {s : State} (hp : s.PagesWf) (hc : s.ChannelsWf) (hr : s.ReferencesWf) :
    s.HeldWf := by
  refine ⟨hp, hp.listed.referencesWf_iff.mp hr, fun c hin => ?_⟩
  have hbetween := (hc c).1.engine.activity hin
  exact State.seat_claim hbetween

end Sys2Proof.Machine

namespace Sys2Proof.Proofs
open Machine

/-- Settles O55: a step is a chain of moves, and every move keeps the counts of the references. -/
theorem referenceCountsAreExact : Obligations.ReferenceCountsAreExact := by
  intro s t hp hc hr h
  have ht := (State.HeldWf.of hp hc hr).moves (.step h)
  exact ht.pages.listed.referencesWf_iff.mpr ht.refs

end Sys2Proof.Proofs
end

section
/-!
The reset state: what power-on reset and the RESET line leave, and that it meets every invariant.
-/
namespace Sys2Proof.Machine

/-! ### The reset state -/

theorem State.chan_reset (c : Chan) : State.reset.chan c = Channel.reset := by
  revert c; decide

theorem State.windowSize_reset (c : Chan) : State.reset.windowSize c = 512 := by
  revert c; decide

theorem resetLines_getElem (lines : Vector TriggerLine 4) (n : Fin 4) :
    (resetLines lines)[n] = ⟨lines[n].high, false⟩ := by
  simp [resetLines]

theorem State.reset_pagesWf : State.reset.PagesWf :=
  .of_empty rfl rfl rfl rfl rfl rfl ⟨rfl, fun e he => by cases he⟩

theorem Link.reset_wf : Link.reset.Wf where
  requests := Nat.zero_le _
  linkReplies := Nat.zero_le _
  notices := Nat.zero_le _
  mask := by decide
  sendingLinkReply := fun h => by cases h
  sendingReply := fun h => by cases h
  awaiting := fun h => by cases h
  busy := fun _ => ⟨rfl, rfl, rfl⟩

theorem State.reset_storeWf : State.reset.StoreWf where
  units := fun c => by rw [State.windowSize_reset]
  fits := by decide
  steps := rfl
  positions := fun e he => by cases he
  valid := fun e he => by cases he

theorem State.reset_scannerWf : State.reset.ScannerWf where
  interval := by decide
  blockSize := by decide
  range := by decide
  cursor := by decide
  sweeps := by decide
  suspended := rfl
  off := fun _ => rfl
  stopping := fun h => by cases h
  waits := rfl
  intervalLeft := fun n h => by cases h
  blockLeft := fun n h => by cases h
  reads := rfl
  inRead := fun r h => by cases h

theorem Engine.reset_wf : Engine.reset.Wf where
  loops := Nat.zero_le _
  returns := Nat.zero_le _
  steps := Nat.zero_le _
  start := rfl
  fault := rfl
  activity := fun _ => rfl
  held := fun h => by cases h
  request := fun h => by cases h
  stopPending := fun h => by cases h
  running := fun h => by cases h
  paused := fun h => by cases h
  idle := fun _ => ⟨rfl, rfl, rfl⟩

theorem Channel.reset_wf : Channel.reset.Wf where
  engine := Engine.reset_wf
  timer := ⟨Nat.zero_le _, fun h => by cases h⟩
  rate := by unfold Rate.Wf; decide
  inForce := by unfold OutputSettings.Wf; decide
  pending := fun g h => by cases h

theorem State.reset_channelsWf : State.reset.ChannelsWf := by
  intro c
  rw [State.chan_reset]
  exact ⟨Channel.reset_wf, rfl⟩

theorem State.claims_reset (c : Chan) : State.reset.claims c = none := by
  rw [State.claims, State.seat, State.engine, State.chan_reset]
  rfl

theorem State.reset_referencesWf : State.reset.ReferencesWf :=
  State.reset_pagesWf.listed.referencesWf_iff.mpr
    ⟨Referred.nil _ State.claims_reset, by decide, fun h i hi => (by cases hi), fun e he => (by cases he)⟩

/-! ### Power-on reset and the RESET line -/

/-- R215: what the blocks' reset leaves of the step windows and the channels. -/
theorem State.windowSize_resetBlocks (s : State) (c : Chan) : s.resetBlocks.windowSize c = 512 :=
  State.windowSize_reset c

theorem State.chan_resetBlocks (s : State) (c : Chan) : s.resetBlocks.chan c = Channel.reset :=
  State.chan_reset c

/-- The blocks' reset, with the straps as read and a new free value of the unknown contents. -/
def State.poweredOn (s : State) (rate : BitVec 2) (en high : Bool) : State :=
  { s.resetBlocks with straps := ⟨rate, en, high⟩, powerOns := s.powerOns + 1 }

theorem State.exec_powerOnReset {s : State} (h : s.inReset = false) (rate : BitVec 2) (en high : Bool) :
    exec (.powerOnReset rate en high) s = .next (s.poweredOn rate en high).leaveReset := by
  have hexec : exec (.powerOnReset rate en high) s =
      .next (if s.inReset then s.poweredOn rate en high else (s.poweredOn rate en high).leaveReset) := rfl
  rw [hexec, h]
  rfl

theorem State.leaveReset_poweredOn (s : State) (rate : BitVec 2) (en high : Bool) :
    (s.poweredOn rate en high).leaveReset =
      if high then (s.poweredOn rate en high).switchToExternal else s.poweredOn rate en high := rfl

/-- R215: the state that the RESET line leaves. -/
def State.lineReset (s : State) : State :=
  { s.resetBlocks with
    inReset := true
    memory := s.memory
    checkWords := s.checkWords
    guards := s.guards.resetLine }

theorem State.exec_resetLine (s : State) : exec .resetLine s = .next s.lineReset := rfl

theorem GuardTable.resetLine_frozen {g : GuardTable} (h : g.level = .frozen) : g.resetLine = g := by
  simp only [GuardTable.resetLine, h]

theorem GuardTable.resetLine_open {g : GuardTable} (h : g.level ≠ .frozen) :
    g.resetLine = ⟨Vector.replicate 8 none, .unlocked, g.line⟩ := by
  unfold GuardTable.resetLine
  split
  · rename_i hf; exact absurd hf h
  · rfl
  · rfl

end Sys2Proof.Machine

namespace Sys2Proof.Proofs
open Machine

/-- Settles O53: each invariant at the reset state. -/
theorem resetMeetsEveryInvariant : Obligations.ResetMeetsEveryInvariant :=
  ⟨State.reset_pagesWf, ⟨⟨by decide, rfl, rfl, rfl⟩, fun _ => rfl⟩, Link.reset_wf, State.reset_storeWf,
    State.reset_scannerWf, State.reset_channelsWf, State.reset_referencesWf⟩

/-- Settles O14: the power-on reset state is the blocks' reset state, and with REF_DEFAULT high a switch to
EXTERNAL has begun in it. -/
theorem powerOnResetState : Obligations.PowerOnResetState := by
  intro rate en high s h
  refine ⟨_, State.exec_powerOnReset h rate en high, ?_⟩
  have hwindow := s.windowSize_resetBlocks
  have hchan := s.chan_resetBlocks
  have hlines := resetLines_getElem s.lines
  have hparts : ∀ (t : State) (c : Chan), t.chan c = Channel.reset →
      t.engine c = Engine.reset ∧ t.timer c = Timer.reset ∧ t.latches c = Latches.reset ∧
        t.rate c = Rate.reset ∧ t.output c = Output.reset := fun t c hc => by
    simp only [State.engine, State.timer, State.latches, State.rate, State.output, hc]
    exact ⟨rfl, rfl, rfl, rfl, rfl⟩
  rw [State.leaveReset_poweredOn]
  cases high
  · exact ⟨rfl, h, rfl, rfl, rfl, rfl, rfl, rfl, fun _ => rfl, fun _ => rfl, rfl, rfl, rfl, rfl, rfl, rfl,
      fun _ => rfl, hwindow, fun c => hparts _ c (hchan c), rfl, hlines, rfl, rfl⟩
  · exact ⟨rfl, h, rfl, rfl, rfl, rfl, rfl, rfl, fun _ => rfl, fun _ => rfl, rfl, rfl, rfl, rfl, rfl, rfl,
      fun _ => rfl, hwindow, fun c => hparts _ c (hchan c), rfl, hlines, rfl, rfl⟩

/-- Settles O15: the state that the RESET line leaves, field by field, and its release by the strap. -/
theorem resetLineAssertedAndReleased : Obligations.ResetLineAssertedAndReleased := by
  constructor
  · intro s
    exact ⟨_, s.exec_resetLine, rfl, rfl, rfl, rfl, fun _ => rfl, fun _ => rfl,
      GuardTable.resetLine_frozen, GuardTable.resetLine_open, rfl, rfl, rfl, rfl, rfl, rfl, rfl, rfl, rfl,
      s.windowSize_resetBlocks, s.chan_resetBlocks, rfl, resetLines_getElem s.lines, rfl, rfl, rfl, rfl, rfl⟩
  · intro s
    refine ⟨fun hr hd => ?_, fun hr hd => ?_, fun hr => ?_⟩
    · change Host.Outcome.next _ = _
      simp only [hr, if_true, State.leaveReset, State.setReceive, hd]
      rfl
    · change Host.Outcome.next _ = _
      simp only [hr, if_true, State.leaveReset, State.setReceive, hd]
      rfl
    · change Host.Outcome.next _ = _
      simp only [hr]
      rfl

end Sys2Proof.Proofs
end

section
/-!
The check store through the resets and standby: what leaves every check word as it was.
-/
namespace Sys2Proof.Machine

/-- What the check words are read from (R10, R12). -/
def State.checkStore (s : State) : Sparse Half × Nat := (s.checkWords, s.powerOns)

theorem State.checkWord_congr {s t : State} (h : t.checkStore = s.checkStore) (p : Nat) :
    t.checkWord p = s.checkWord p := by
  obtain ⟨hw, hn⟩ := Prod.mk.inj h
  simp only [State.checkWord, hw, hn]

theorem State.checkStore_release (s : State) (n : Nat) : (s.release n).checkStore = s.checkStore := by
  unfold State.release
  simp only
  split <;> rfl

theorem State.checkStore_endReference (s : State) (c : Chan) :
    (s.endReference c).checkStore = s.checkStore := by
  unfold State.endReference
  split
  · exact s.checkStore_release _
  · exact s.checkStore_release _
  · rfl
  · rfl

theorem State.checkStore_resetChannel (s : State) (c : Chan) :
    (s.resetChannel c).checkStore = s.checkStore := by
  have hidle : ∀ u : State, (u.idleChannel c).checkStore = u.checkStore := fun u => by
    rw [State.idleChannel_eq]; rfl
  have htimer : ∀ (u : State) (x : Timer), (u.setTimer c x).checkStore = u.checkStore := fun _ _ => rfl
  unfold State.resetChannel
  rw [htimer, hidle, State.checkStore_endReference]

theorem State.checkStore_eachChannel (f : Chan → State → State)
    (hf : ∀ (c : Chan) (u : State), (f c u).checkStore = u.checkStore) (s : State) :
    (s.eachChannel f).checkStore = s.checkStore := by
  have hfold : ∀ (l : List Chan) (u : State),
      (l.foldl (fun u c => f c u) u).checkStore = u.checkStore := by
    intro l
    induction l with
    | nil => intro u; rfl
    | cons c l ih => intro u; rw [List.foldl_cons, ih, hf]
  exact hfold allChannels s

theorem State.checkStore_cancelImport (s : State) (cause : CancelCause) :
    (s.cancelImport cause).checkStore = s.checkStore := by
  unfold State.cancelImport
  split
  · rfl
  · unfold State.discardIncoming
    split <;> rfl

theorem State.checkStore_engineReset (s : State) : s.engineReset.checkStore = s.checkStore := by
  have h : ((s.eachChannel fun c u => u.resetChannel c).cancelImport .request).checkStore = s.checkStore := by
    rw [State.checkStore_cancelImport,
      State.checkStore_eachChannel _ (fun c u => u.checkStore_resetChannel c)]
  unfold State.engineReset
  generalize (s.eachChannel fun c u => u.resetChannel c).cancelImport .request = u at h
  exact h

theorem State.checkStore_completeSending (s : State) : s.completeSending.checkStore = s.checkStore := by
  unfold State.completeSending
  split
  · rfl
  · rfl
  · unfold State.afterReply
    split
    · rfl
    · rfl
    · exact State.checkStore_engineReset _
  · rfl

theorem State.checkStore_visitPages : ∀ (n : Nat) (s : State),
    (s.visitPages n).checkStore = s.checkStore := by
  intro n
  induction n with
  | zero => intro s; rfl
  | succ n ih =>
    intro s
    unfold State.visitPages
    split
    · rfl
    · exact ih _

theorem State.checkStore_takeWake (s : State) : (takeWake s).1.checkStore = s.checkStore := by
  unfold takeWake
  split
  · unfold State.resumeWalk
    simp only [answer]
    split
    · exact State.checkStore_visitPages _ _
    · rfl
  · rfl

theorem State.checkStore_event {f : State → State} {s t : State} (h : event f s = .next t)
    (hf : (f s).checkStore = s.checkStore) : t.checkStore = s.checkStore :=
  event_keeps (fun u => u.checkStore = s.checkStore) f s t rfl hf (fun _ _ hu => hu) h

theorem State.checkStore_execWake {tag : Byte} {s t : State} (h : exec (.wake tag) s = .next t) :
    t.checkStore = s.checkStore :=
  submit_keeps (fun u => u.checkStore = s.checkStore) (.wake tag) takeWake s t rfl s.checkStore_takeWake
    (fun _ _ hu => hu) h

end Sys2Proof.Machine

namespace Sys2Proof.Proofs
open Machine

/-- Settles O17: power-on reset empties the check store and renews the free value; nothing else here writes
a check word. -/
theorem checkWordsThroughResets : Obligations.CheckWordsThroughResets := by
  intro s
  refine ⟨fun rate en high t h => ?_, fun t h => ?_, fun t h => State.checkWord_congr ?_,
    fun t h => State.checkWord_congr ?_, fun tag t h => State.checkWord_congr (State.checkStore_execWake h)⟩
  · have hstore : t.checkStore = (s.poweredOn rate en high).checkStore := by
      obtain rfl := Host.Outcome.next.inj h
      split
      · rfl
      · unfold State.leaveReset
        split <;> rfl
    exact ⟨congrArg Prod.snd hstore, State.checkWord_congr hstore⟩
  · obtain rfl := Host.Outcome.next.inj (s.exec_resetLine.symm.trans h)
    exact ⟨fun _ => rfl, rfl⟩
  · refine State.checkStore_event (f := fun s =>
      if s.link.sendingAwaited .engineReset then s.completeSending else s) h ?_
    split
    · exact s.checkStore_completeSending
    · rfl
  · refine State.checkStore_event (f := fun s =>
      if s.link.sendingAwaited .standby then s.completeSending else s) h ?_
    split
    · exact s.checkStore_completeSending
    · rfl

end Sys2Proof.Proofs
end

section
/-!
The requests that define an image, write its pages and finish it: what each block answers, case by case, and
the statements about them.
-/
namespace Sys2Proof.Machine

/-! ### DEFINE IMAGE (R20) -/

theorem exec_defineImage {s u : State} {tag c : Byte} {h : Half} {n : Quad} {p : List Byte}
    (ho : s.open = true) (ht : takeDefineImage h n c s = (u, p)) :
    exec (.defineImage tag h n c) s = .next (u.withReply 0x10 tag p) := by
  rw [exec_open (take := takeDefineImage h n c) rfl rfl rfl ho, ht]

theorem takeDefineImage_range {s : State} {h : Half} {n : Quad} {c : Byte}
    (hb : 1023 < h.toNat ∨ boolOfCode c = none ∨ n.toNat = 0 ∨ 8388608 < n.toNat) :
    takeDefineImage h n c s = refuse .range s := by
  unfold takeDefineImage
  split
  · rfl
  · split
    · rfl
    · rename_i hh _ flag hf
      rw [if_pos]
      rcases hb with hb | hb | hb
      · exact absurd hb hh
      · rw [hf] at hb; cases hb
      · exact hb

section
variable {s : State} {h : Half} {n : Quad} {c : Byte} {flag : Bool}

theorem takeDefineImage_exists (hh : h.toNat ≤ 1023) (hc : boolOfCode c = some flag) (h1 : 1 ≤ n.toNat)
    (h2 : n.toNat ≤ 8388608) (hin : (s.handle h.toNat).incoming.isSome = true) :
    takeDefineImage h n c s = refuse .incomingExists s := by
  unfold takeDefineImage
  rw [if_neg (by omega)]
  simp only [hc]
  rw [if_neg (by omega), if_pos hin]

theorem takeDefineImage_noSpace (hh : h.toNat ≤ 1023) (hc : boolOfCode c = some flag) (h1 : 1 ≤ n.toNat)
    (h2 : n.toNat ≤ 8388608) (hin : (s.handle h.toNat).incoming = none)
    (hi : s.createImage h.toNat n.toNat .requests flag = none) :
    takeDefineImage h n c s = refuse .noSpace s := by
  unfold takeDefineImage
  rw [if_neg (by omega)]
  simp only [hc]
  rw [if_neg (by omega), if_neg (by simp [hin]), hi]

theorem takeDefineImage_created {u : State} {i : Image} (hh : h.toNat ≤ 1023)
    (hc : boolOfCode c = some flag) (h1 : 1 ≤ n.toNat) (h2 : n.toNat ≤ 8388608)
    (hin : (s.handle h.toNat).incoming = none)
    (hi : s.createImage h.toNat n.toNat .requests flag = some (i, u)) :
    takeDefineImage h n c s = answer .ok (byte2 i.serial ++ byte2 i.firstPage) u := by
  unfold takeDefineImage
  rw [if_neg (by omega)]
  simp only [hc]
  rw [if_neg (by omega), if_neg (by simp [hin]), hi]

end

theorem State.createImage_eq_none {s : State} {h n : Nat} {source : FillSource} {flag : Bool}
    (ha : allocate (s.guards.ranges .fence) (pagesFor n) s.free = none) :
    s.createImage h n source flag = none := by
  simp only [State.createImage, ha]

/-- R3, R5, R15: the image that is created where there is room. -/
theorem State.exists_createImage {s : State} {h n p : Nat} {source : FillSource} {flag : Bool}
    {rest : List Extent} (ha : allocate (s.guards.ranges .fence) (pagesFor n) s.free = some (p, rest)) :
    ∃ i u, s.createImage h n source flag = some (i, u) ∧
      i = ⟨s.imagesMade, freshSerial (s.liveImages.map Image.serial) s.liveImages.length s.serialCounter,
        p, pagesFor n, n, source, .loading flag [], 0⟩ ∧
      u = { s with free := rest, serialCounter := serialAfter i.serial
                   imagesMade := s.imagesMade + 1 }.setHandle h
            { s.handle h with incoming := some i } := by
  simp only [State.createImage, ha]
  exact ⟨_, _, rfl, by rw [List.length_map], rfl⟩

/-- R5: the serial that is given, counted from the counter. -/
theorem State.freshSerial_counts {s : State} (h1 : 1 ≤ s.serialCounter) (h2 : s.serialCounter ≤ 65535)
    (hl : s.liveImages.length < 65535) :
    ∃ j, freshSerial (s.liveImages.map Image.serial) s.liveImages.length s.serialCounter =
        (s.serialCounter - 1 + j) % 65535 + 1 ∧
      freshSerial (s.liveImages.map Image.serial) s.liveImages.length s.serialCounter ∉
        s.liveImages.map Image.serial ∧
      ∀ i, i < j → (s.serialCounter - 1 + i) % 65535 + 1 ∈ s.liveImages.map Image.serial := by
  obtain ⟨j, -, he, hlive, -⟩ :=
    freshSerial_spec (s.liveImages.map Image.serial) s.liveImages.length s.serialCounter h1 h2
  refine ⟨j, he, ?_, hlive⟩
  have hnew := freshSerial_not_mem (live := s.liveImages.map Image.serial) h1 h2
    (by rwa [List.length_map])
  rwa [List.length_map] at hnew

theorem serialAfter_eq {n : Nat} (h : n ≤ 65535) : serialAfter n = if n = 65535 then 1 else n + 1 := by
  unfold serialAfter
  split <;> split <;> omega

/-! ### WRITE PAGE (R21) and decay (R8) -/

theorem exec_writePage {s u : State} {tag : Byte} {h k : Half} {xs : List Half} {p : List Byte}
    (ho : s.open = true) (hx : xs.length = 256) (ht : takeWritePage h k xs s = (u, p)) :
    exec (.writePage tag h k xs) s = .next (u.withReply 0x11 tag p) := by
  rw [exec_open (take := takeWritePage h k xs) rfl rfl (by simp [Instr.wellFormed, hx]) ho, ht]

theorem takeWritePage_range {s : State} {h k : Half} {xs : List Half} (hh : 1023 < h.toNat) :
    takeWritePage h k xs s = refuse .range s := by
  rw [takeWritePage, if_pos hh]

theorem takeWritePage_none {s : State} {h k : Half} {xs : List Half} (hh : h.toNat ≤ 1023)
    (hin : (s.handle h.toNat).incoming = none) : takeWritePage h k xs s = refuse .noIncoming s := by
  rw [takeWritePage, if_neg (by omega)]
  simp only [hin]

theorem takeWritePage_some {s : State} {h k : Half} {xs : List Half} {i : Image} (hh : h.toNat ≤ 1023)
    (hin : (s.handle h.toNat).incoming = some i) : takeWritePage h k xs s =
      if !i.takesRequests then refuse .notLoading s
      else if i.pageCount ≤ k.toNat then refuse .range s
      else answer .ok [] (s.writeImagePage h.toNat i k.toNat (bytesOfHalves xs)) := by
  rw [takeWritePage, if_neg (by omega)]
  simp only [hin]

theorem Image.takesRequests_of {i : Image} {c : Bool} {w : List Nat} (hp : i.phase = .loading c w)
    (hs : i.source = .requests) : i.takesRequests = true := i.takesRequests_iff.mpr ⟨⟨c, w, hp⟩, hs⟩

/-- R21, R22: a READY image takes no data, nor does one that an import fills. -/
theorem Image.takesRequests_eq_false {i : Image}
    (h : (∃ g c, i.phase = .ready g c) ∨ i.source = .imported) : i.takesRequests = false := by
  refine Bool.eq_false_iff.mpr fun ht => ?_
  obtain ⟨⟨c, w, hp⟩, hs⟩ := i.takesRequests_iff.mp ht
  rcases h with ⟨g, x, hr⟩ | hi
  · rw [hp] at hr; cases hr
  · rw [hs] at hi; cases hi

/-- R4: the bytes that a page's samples make, position by position. -/
theorem Image.pageContents_samples (i : Image) (k : Nat) {xs : List Half} (hx : xs.length = 256) {o : Nat}
    (ho : o < 512) : (i.pageContents k (bytesOfHalves xs)).getD o 0 =
      if k + 1 = i.pageCount ∧ 2 * (i.sampleLength - 256 * (i.pageCount - 1)) ≤ o then 0
      else (xs.getD (o / 2) 0).extractLsb' (8 * (o % 2)) 8 := by
  have hlen : o < (bytesOfHalves xs).length := by
    rw [Sys2Proof.Laws.RequestLength.bytesOfHalves_length, hx]; exact ho
  have hbyte : (bytesOfHalves xs).getD o 0xFF = (xs.getD (o / 2) 0).extractLsb' (8 * (o % 2)) 8 := by
    rw [← bytesOfHalves_getD]
    simp [List.getD, hlen]
  rw [Image.pageContents_getD _ _ _ ho, hbyte]
  unfold Image.dataBytes Image.lastPageSamples
  by_cases hk : k + 1 = i.pageCount
  · rw [if_pos hk]
    split
    · rw [if_neg (by omega)]
    · rw [if_pos ⟨hk, by omega⟩]
  · rw [if_neg hk, if_pos ho, if_neg fun hc => hk hc.1]

theorem State.pageBytes_setHandle (s : State) (h : Nat) (r : HandleRecord) (p : Nat) :
    (s.setHandle h r).pageBytes p = s.pageBytes p := by
  unfold State.pageBytes
  exact List.map_congr_left fun k _ => rfl

theorem State.decayPage_eq {s : State} {page : Nat} {data : List Byte} (hd : data.length = 512)
    (hc : crc data ≠ s.checkWord page) :
    s.decayPage page data = { s with memory := Memory.write s.memory (512 * page) data } := by
  rw [State.decayPage, if_pos ⟨hd, hc⟩]

/-! ### FINISH IMAGE (R22) -/

theorem exec_finishImage {s u : State} {tag : Byte} {h : Half} {p : List Byte}
    (ho : s.open = true) (ht : takeFinishImage h s = (u, p)) :
    exec (.finishImage tag h) s = .next (u.withReply 0x12 tag p) := by
  rw [exec_open (take := takeFinishImage h) rfl rfl rfl ho, ht]

theorem takeFinishImage_none {s : State} {h : Half} (hh : h.toNat ≤ 1023)
    (hin : (s.handle h.toNat).incoming = none) : takeFinishImage h s = refuse .noIncoming s := by
  rw [takeFinishImage, if_neg (by omega)]
  simp only [hin]

theorem takeFinishImage_notLoading {s : State} {h : Half} {i : Image} (hh : h.toNat ≤ 1023)
    (hin : (s.handle h.toNat).incoming = some i)
    (hi : (∃ g c, i.phase = .ready g c) ∨ i.source = .imported) :
    takeFinishImage h s = refuse .notLoading s := by
  rw [takeFinishImage, if_neg (by omega)]
  simp only [hin]
  split
  · rename_i hp hs
    rcases hi with ⟨g, c, hr⟩ | hi
    · rw [hp] at hr; cases hr
    · rw [hs] at hi; cases hi
  · rfl

section
variable {s : State} {h : Half} {i : Image} {commit : Bool} {written : List Nat}

theorem takeFinishImage_incomplete (hh : h.toNat ≤ 1023) (hin : (s.handle h.toNat).incoming = some i)
    (hp : i.phase = .loading commit written) (hs : i.source = .requests)
    (hl : lowestMissing 0 written < i.pageCount) :
    takeFinishImage h s = answer .incomplete (byte2 (lowestMissing 0 written)) s := by
  rw [takeFinishImage, if_neg (by omega)]
  simp only [hin, hp, hs]
  rw [if_pos hl]

theorem takeFinishImage_kept (hh : h.toNat ≤ 1023) (hin : (s.handle h.toNat).incoming = some i)
    (hp : i.phase = .loading false written) (hs : i.source = .requests)
    (hl : i.pageCount ≤ lowestMissing 0 written) :
    takeFinishImage h s =
      answer .ok (byte2 i.serial ++ bytesOfHalf (s.summaryCheck i) ++ optionalPart 1 none)
        (s.setHandle h.toNat { s.handle h.toNat with incoming := some (s.readied i) }) := by
  rw [takeFinishImage, if_neg (by omega)]
  simp only [hin, hp, hs]
  rw [if_neg (by omega)]
  rfl

theorem takeFinishImage_refused {st : Status} (hh : h.toNat ≤ 1023)
    (hin : (s.handle h.toNat).incoming = some i) (hp : i.phase = .loading true written)
    (hs : i.source = .requests) (hl : i.pageCount ≤ lowestMissing 0 written)
    (hc : (s.setHandle h.toNat { s.handle h.toNat with incoming := some (s.readied i) }).commitAttempt
      h.toNat (s.readied i) = .error st) :
    takeFinishImage h s =
      answer .ok (byte2 i.serial ++ bytesOfHalf (s.summaryCheck i) ++ optionalPart 1 (some [st.code]))
        (s.setHandle h.toNat { s.handle h.toNat with incoming := some (s.readied i) }) := by
  rw [takeFinishImage, if_neg (by omega)]
  simp only [hin, hp, hs]
  rw [if_neg (by omega)]
  simp only [hc, if_true]

theorem takeFinishImage_committed {d : Option (Nat × Disposition)} {u : State} (hh : h.toNat ≤ 1023)
    (hin : (s.handle h.toNat).incoming = some i) (hp : i.phase = .loading true written)
    (hs : i.source = .requests) (hl : i.pageCount ≤ lowestMissing 0 written)
    (hc : (s.setHandle h.toNat { s.handle h.toNat with incoming := some (s.readied i) }).commitAttempt
      h.toNat (s.readied i) = .ok (d, u)) :
    takeFinishImage h s =
      answer .ok (byte2 i.serial ++ bytesOfHalf (s.summaryCheck i) ++
        optionalPart 1 (some [Status.code .ok])) u := by
  rw [takeFinishImage, if_neg (by omega)]
  simp only [hin, hp, hs]
  rw [if_neg (by omega)]
  simp only [hc, if_true]

end

end Sys2Proof.Machine

namespace Sys2Proof.Proofs
open Machine

/-- Settles O35, by the answers of DEFINE IMAGE and the serial that is counted from the counter. -/
theorem imagesAreDefined : Obligations.ImagesAreDefined := by
  intro tag c h n s ho
  refine ⟨fun hb => exec_defineImage ho (takeDefineImage_range hb), fun flag hh hc h1 h2 =>
    ⟨fun hin => exec_defineImage ho (takeDefineImage_exists hh hc h1 h2 hin), fun hin ha =>
      exec_defineImage ho (takeDefineImage_noSpace hh hc h1 h2 hin (State.createImage_eq_none ha)),
      fun p rest hin ha hs1 hs2 hlen => ?_⟩⟩
  obtain ⟨i, u, hcreate, hi, hu⟩ :=
    State.exists_createImage (h := h.toNat) (source := .requests) (flag := flag) ha
  obtain ⟨j, hserial, hnew, hlive⟩ := State.freshSerial_counts hs1 hs2 hlen
  have hi' : i.serial =
      freshSerial (s.liveImages.map Image.serial) s.liveImages.length s.serialCounter := by rw [hi]
  refine ⟨i.serial, j, u, exec_defineImage ho ?_, hi' ▸ hserial, hi' ▸ hnew, hlive, ?_, fun k hk => ?_, ?_⟩
  · have hfirst : i.firstPage = p := by rw [hi]
    rw [takeDefineImage_created hh hc h1 h2 hin hcreate, hfirst]
    rfl
  · rw [hu, State.handle_setHandle_self _ _ (by simp [HandleRecord.empty]), hi]
    rfl
  · rw [hu, State.handle_setHandle_ne _ hk]
    rfl
  · have hle : i.serial ≤ 65535 := by rw [hi', hserial]; omega
    rw [← serialAfter_eq hle, hu]
    rfl

/-- Settles O37, by the answers of WRITE PAGE and the bytes that a stored page reads as. -/
theorem pagesAreWritten : Obligations.PagesAreWritten := by
  refine ⟨fun tag h k xs s ho hx => ⟨fun hh => exec_writePage ho hx (takeWritePage_range hh),
    fun hh hin => exec_writePage ho hx (takeWritePage_none hh hin), fun i hh hin => ⟨fun hi => ?_,
      fun commit written hp hs => ⟨fun hk => ?_, fun hk => ?_⟩⟩⟩, fun page data s hs => ?_,
    fun page data s hs hd hc => ?_⟩
  · refine exec_writePage ho hx ?_
    rw [takeWritePage_some hh hin, Image.takesRequests_eq_false hi]
    rfl
  · refine exec_writePage ho hx ?_
    rw [takeWritePage_some hh hin, Image.takesRequests_of hp hs, if_neg (by simp), if_pos hk]
    rfl
  · have hlen := i.pageContents_length k.toNat (bytesOfHalves xs)
    refine ⟨insertIndex k.toNat written, s.writeImagePage h.toNat i k.toNat (bytesOfHalves xs),
      exec_writePage ho hx ?_, ?_⟩
    · rw [takeWritePage_some hh hin, Image.takesRequests_of hp hs, if_neg (by simp),
        if_neg (by omega)]
      rfl
    rw [s.writeImagePage_loading h.toNat k.toNat (bytesOfHalves xs) hp]
    refine ⟨fun a => ?_, fun q => ?_, mem_insertIndex k.toNat written, ?_, fun j hj => ?_, rfl⟩
    · refine (State.storedByte_storePage s (i.firstPage + k.toNat) hlen a).trans ?_
      refine ite_congr rfl (fun ha => ?_) fun _ => rfl
      rw [Image.pageContents_samples i k.toNat hx (by omega)]
      have hparity : (a - 512 * (i.firstPage + k.toNat)) % 2 = a % 2 := by omega
      rw [hparity]
    · refine (State.checkWord_storePage s (i.firstPage + k.toNat) _ q).trans ?_
      refine ite_congr rfl (fun hq => congrArg crc ?_) fun _ => rfl
      rw [hq, State.pageBytes_setHandle, State.pageBytes_storePage _ _ hlen]
    · exact State.handle_setHandle_self _ _ (by simp [HandleRecord.empty])
    · exact State.handle_setHandle_ne _ hj _
  · have hexec : exec (.pageDecay page data) s =
        .next (if s.link.standby then s else s.decayPage page.toNat data).transmit := rfl
    rw [hexec, if_pos hs]
  · have hexec : exec (.pageDecay page data) s =
        .next (if s.link.standby then s else s.decayPage page.toNat data).transmit := rfl
    refine ⟨s.decayPage page.toNat data, by rw [hexec, hs]; rfl, fun a => ?_, ?_⟩
    · rw [State.decayPage_eq hd hc]
      exact State.storedByte_storePage s page.toNat hd a
    · rw [State.decayPage_eq hd hc]

/-- Settles O38, by the answers of FINISH IMAGE and the lowest missing index of a written-page set. -/
theorem imagesAreFinished : Obligations.ImagesAreFinished := by
  refine ⟨fun tag h s ho hh => ⟨fun hin => exec_finishImage ho (takeFinishImage_none hh hin),
    fun i hin hi => exec_finishImage ho (takeFinishImage_notLoading hh hin hi)⟩,
    fun tag h i commit written s ho hh hin hp hs hw => ?_⟩
  refine ⟨fun k hk hnew hbelow => exec_finishImage ho ?_, fun hall => ?_⟩
  · have hlow := lowestMissing_eq written 0 k hw (fun _ _ => Nat.zero_le _) (Nat.zero_le _) hnew
      fun j _ hj => hbelow j hj
    rw [takeFinishImage_incomplete hh hin hp hs (hlow ▸ hk), hlow]
    rfl
  · have hfull := le_lowestMissing_of_all written i.pageCount hw hall
    refine ⟨fun hc => ?_, fun st hc ha => ?_, fun d t hc ha => ?_⟩ <;> rw [hc] at hp
    · exact exec_finishImage ho (takeFinishImage_kept hh hin hp hs hfull)
    · exact exec_finishImage ho (takeFinishImage_refused hh hin hp hs hfull ha)
    · exact exec_finishImage ho (takeFinishImage_committed hh hin hp hs hfull ha)

end Sys2Proof.Proofs
end

section
/-!
Completed page reads of an import: the next read, or the end of the import by the outcome of its commit.
-/
namespace Sys2Proof.Machine

section
variable {s : State} {id : Nat} {data : List Byte} {r : ImportRecord} {x : Transaction}

/-- R177: a completion of the transaction begun last is taken. -/
theorem exec_importPageComplete_named (hlive : s.inReset = false) (hr : s.importer.record = some r)
    (hx : s.importer.reading = some x) (hid : x.id = id) :
    exec (.importPageComplete id data) s = .next (s.completePage r data).transmit := by
  change execImportPageComplete id data s = _
  rw [execImportPageComplete, event_live _ hlive]
  simp only [hr, hx, if_pos hid]

/-- R177: any other completion changes nothing. -/
theorem exec_importPageComplete_other (hlive : s.inReset = false) (hr : s.importer.record = some r)
    (hx : s.importer.reading = some x) (hid : x.id ≠ id) :
    exec (.importPageComplete id data) s = .next s.transmit := by
  change execImportPageComplete id data s = _
  rw [execImportPageComplete, event_live _ hlive]
  simp only [hr, hx, if_neg hid]

variable {i : Image}

theorem State.completePage_goesOn (hin : (s.handle r.handle).incoming = some i)
    (hn : r.nextPage + 1 < r.pageCount) : s.completePage r data =
      (s.writeImagePage r.handle i r.nextPage data).beginRead { r with nextPage := r.nextPage + 1 } := by
  simp only [State.completePage, hin, if_pos hn]

theorem State.completePage_ends (hin : (s.handle r.handle).incoming = some i)
    (hn : r.nextPage + 1 = r.pageCount) : s.completePage r data =
      (s.writeImagePage r.handle i r.nextPage data).completeImport r i := by
  simp only [State.completePage, hin, if_neg (by omega : ¬r.nextPage + 1 < r.pageCount)]

/-! ### The end of an import (R178) -/

/-- R178: the state in which the image of an import is READY. -/
def State.importReady (s : State) (r : ImportRecord) (i : Image) : State :=
  s.setHandle r.handle { s.handle r.handle with incoming := some (s.readied i) }

/-- R178: LI becomes IDLE, with the import's notice. -/
def State.importEnded (s : State) (r : ImportRecord) (outcome : ImportOutcome) : State :=
  ({ s with importer := { s.importer with record := none, reading := none } }).notify
    (.importEnd r.handle r.serial outcome)

theorem State.completeImport_kept (hc : r.commitOnFinish = false) :
    s.completeImport r i = (s.importReady r i).importEnded r (.done (s.summaryCheck i) false) := by
  simp only [State.completeImport, hc]
  rfl

theorem State.completeImport_refused {st : Status} (hc : r.commitOnFinish = true)
    (ha : (s.importReady r i).commitAttempt r.handle (s.readied i) = .error st) :
    s.completeImport r i =
      (s.importReady r i).importEnded r (.doneNotCommitted (s.summaryCheck i) st) := by
  unfold State.importReady at ha
  simp only [State.completeImport, hc, if_true, ha]
  rfl

theorem State.completeImport_committed {d : Option (Nat × Disposition)} {u : State}
    (hc : r.commitOnFinish = true)
    (ha : (s.importReady r i).commitAttempt r.handle (s.readied i) = .ok (d, u)) :
    s.completeImport r i = u.importEnded r (.done (s.summaryCheck i) true) := by
  unfold State.importReady at ha
  simp only [State.completeImport, hc, if_true, ha]
  rfl

end

/-- A commit attempt leaves the importer as it was. -/
theorem State.importer_of_commitAttempt {s u : State} {h : Nat} {i : Image}
    {d : Option (Nat × Disposition)} (hc : s.commitAttempt h i = .ok (d, u)) :
    u.importer = s.importer := by
  unfold State.commitAttempt at hc
  split at hc
  · obtain ⟨-, rfl⟩ := Prod.mk.inj (Except.ok.inj hc)
    rfl
  · split at hc
    · cases hc
    · obtain ⟨-, rfl⟩ := Prod.mk.inj (Except.ok.inj hc)
      unfold State.dispose
      split <;> rfl

/-! ### The bytes of an import's page (R173, R4) -/

theorem Image.pageContents_import {i : Image} {pageCount sampleLength : Nat} (hc : i.pageCount = pageCount)
    (hl : i.sampleLength = sampleLength) (k : Nat) (data : List Byte) :
    i.pageContents k data = (List.range 512).map fun o =>
      if k + 1 = pageCount ∧ 2 * (sampleLength - 256 * (pageCount - 1)) ≤ o then 0
      else data.getD o 0xFF := by
  subst hc hl
  refine List.map_congr_left fun o ho => ?_
  have ho' := List.mem_range.mp ho
  unfold Image.dataBytes Image.lastPageSamples
  by_cases hk : k + 1 = i.pageCount
  · rw [if_pos hk]
    split
    · rw [if_neg (by omega)]
    · rw [if_pos ⟨hk, by omega⟩]
  · rw [if_neg hk, if_pos ho', if_neg fun h => hk h.1]

end Sys2Proof.Machine

namespace Sys2Proof.Proofs
open Machine

/-- Settles O44, by the page that is stored and the commit attempt at the import's end. -/
theorem importPagesComplete : Obligations.ImportPagesComplete := by
  intro id data r x i commit w s hlive hr hx hin hp hcount hlen
  refine ⟨fun hid => exec_importPageComplete_other hlive hr hx hid, fun hid => ?_⟩
  have hexec := exec_importPageComplete_named (data := data) hlive hr hx hid
  have hbytes := Image.pageContents_import hcount hlen r.nextPage data
  have hwrite := s.writeImagePage_loading r.handle r.nextPage data hp
  rw [hbytes] at hwrite
  intro last stored u
  have hwrite' : s.writeImagePage r.handle i r.nextPage data = u.setHandle r.handle
      ⟨(s.handle r.handle).current, some { i with phase := .loading commit (insertIndex r.nextPage w) }⟩ :=
    hwrite
  refine ⟨fun hn => ⟨insertIndex r.nextPage w, mem_insertIndex r.nextPage w, ?_⟩, fun hn => ?_⟩
  · rw [hexec, State.completePage_goesOn hin hn, hwrite']
    rfl
  · intro c ready idle ended
    rw [State.completePage_ends hin hn, hwrite'] at hexec
    generalize hv : u.setHandle r.handle ⟨(s.handle r.handle).current,
      some { i with phase := .loading commit (insertIndex r.nextPage w) }⟩ = v at hexec
    have hself : v.handle r.handle = ⟨(s.handle r.handle).current,
        some { i with phase := .loading commit (insertIndex r.nextPage w) }⟩ := by
      rw [← hv]
      exact State.handle_setHandle_self _ _ (by simp [HandleRecord.empty])
    have hsummary : v.summaryCheck i = c := by
      rw [← hv, State.summaryCheck, hcount]
      rfl
    have hready : v.readied i = ready := by rw [State.readied, hsummary]
    have himporter : v.importer = s.importer := by rw [← hv]; rfl
    have hidle : ∀ (t : State) (o : ImportOutcome), t.importer = s.importer →
        ended t o = .next (t.importEnded r o).transmit := fun t o ht => by
      simp only [State.importEnded, ht, ended, idle]
    refine ⟨v.importReady r i, ?_, fun k hk => ?_, ?_, fun hc => ?_, fun hc => ⟨fun st ha => ?_,
      fun d t ha => ?_⟩⟩
    · rw [State.importReady, State.handle_setHandle_self _ _ (by simp [HandleRecord.empty]), hself, hready]
    · rw [State.importReady, State.handle_setHandle_ne _ hk, ← hv, State.handle_setHandle_ne _ hk]
      rfl
    · rw [← hv]; rfl
    · rw [hexec, State.completeImport_kept hc, hsummary]
      exact (hidle (v.importReady r i) _ himporter).symm
    · rw [← hready] at ha
      rw [hexec, State.completeImport_refused hc ha, hsummary]
      exact (hidle (v.importReady r i) _ himporter).symm
    · rw [← hready] at ha
      rw [hexec, State.completeImport_committed hc ha, hsummary]
      exact (hidle _ _ ((State.importer_of_commitAttempt ha).trans himporter)).symm

end Sys2Proof.Proofs
end

section
/-!
Completed page reads of the walk: the comparison, the damage mark and its notice, and how the block goes on.
-/
namespace Sys2Proof.Machine

section
variable {s : State} {id : Nat} {r : PageRead}

/-- R191: a completion of the read of the page in read is taken. -/
theorem exec_scanReadComplete_named (hlive : s.inReset = false) (hr : s.scanner.pageInRead = some r)
    (hid : r.id = id) :
    exec (.scanReadComplete id) s = .next (s.compareRead r).endVisit.transmit := by
  change execScanReadComplete id s = _
  rw [execScanReadComplete, event_live _ hlive]
  simp only [hr, if_pos hid]

/-- R191: any other completion is dropped. -/
theorem exec_scanReadComplete_other (hlive : s.inReset = false) (hr : s.scanner.pageInRead = some r)
    (hid : r.id ≠ id) : exec (.scanReadComplete id) s = .next s.transmit := by
  change execScanReadComplete id s = _
  rw [execScanReadComplete, event_live _ hlive]
  simp only [hr, if_neg hid]

end

/-! ### The block after a visit (R189, R190) -/

section
variable {u : State} {left : Nat}

theorem State.endVisit_eq (hx : u.scanner.inRange) (hl : u.scanner.blockRemaining = some left) :
    u.endVisit = (u.setScanner { u.scanner.after 1 with pageInRead := none }).visitPages (left - 1) := by
  have hmove : ({ u.scanner with pageInRead := none } : Scanner).moveOn =
      { u.scanner.after 1 with pageInRead := none } :=
    Scanner.moveOn_eq (x := { u.scanner with pageInRead := none }) hx
  have hend : u.endVisit = (u.setScanner
      ({ u.scanner with pageInRead := none } : Scanner).moveOn).visitPages (left - 1) := by
    simp only [State.endVisit, hl]
  rw [hend, hmove]

/-- The visits after one visit, the page in read gone. -/
theorem Scanner.after_visit {x : Scanner} (hx : x.inRange) (j : Nat) :
    ({ x.after 1 with pageInRead := none } : Scanner).after j =
      { x.after (j + 1) with pageInRead := none } := by
  have h := Scanner.after_after (x := { x with pageInRead := none }) hx 1 j
  rw [Nat.add_comm 1 j] at h
  exact h

theorem State.endVisit_read {m : Nat} {i : Image} (hx : u.scanner.inRange)
    (hl : u.scanner.blockRemaining = some left) (hm : m + 1 < left)
    (hpass : ∀ j, j < m → u.toRead (u.scanner.after (j + 1)).cursor = none)
    (hread : u.toRead (u.scanner.after (m + 1)).cursor = some i) :
    u.endVisit = { u with scanner := { u.scanner.after (m + 1) with
      blockRemaining := some (left - (m + 1))
      pageInRead := some ⟨(u.scanner.after (m + 1)).cursor, i.ident, u.scanner.begun⟩
      begun := u.scanner.begun + 1 } } := by
  rw [State.endVisit_eq hx hl, State.visitPages_read m (left - 1) _ i (by omega)
    (Scanner.after_inRange (x := u.scanner) hx 1)]
  · simp only [State.setScanner_scanner, Scanner.after_visit hx]
    rw [show left - 1 - m = left - (m + 1) by omega]
    rfl
  · intro j hj
    simp only [State.setScanner_scanner, Scanner.after_visit hx]
    exact hpass j hj
  · simp only [State.setScanner_scanner, Scanner.after_visit hx]
    exact hread

theorem State.endVisit_none (hx : u.scanner.inRange) (hl : u.scanner.blockRemaining = some left)
    (h1 : 1 ≤ left) (hpass : ∀ j, j + 1 < left → u.toRead (u.scanner.after (j + 1)).cursor = none) :
    u.endVisit = u.setScanner (Scanner.endBlock { u.scanner.after left with pageInRead := none }) := by
  rw [State.endVisit_eq hx hl, State.visitPages_none (left - 1) _ (Scanner.after_inRange (x := u.scanner) hx 1)]
  · simp only [State.setScanner_scanner, Scanner.after_visit hx]
    rw [show left - 1 + 1 = left by omega]
    rfl
  · intro j hj
    simp only [State.setScanner_scanner, Scanner.after_visit hx]
    exact hpass j (by omega)

end

/-- How a block with `left` pages to visit in `s` goes on after the page in read, where `u` is the state after
the comparison and `result` what the completion answers. -/
def State.BlockGoesOn (s : State) (left : Nat) (result : Result) (u : State) : Prop :=
  let x := s.scanner
  let answers (y : Scanner) : Prop := result = .next ({ u with scanner := y }).transmit
  (∀ (m : Nat) (i : Image), m + 1 < left →
    (∀ j, j < m → s.toRead (x.after (j + 1)).cursor = none) →
    s.toRead (x.after (m + 1)).cursor = some i →
    answers { x.after (m + 1) with
      blockRemaining := some (left - (m + 1))
      pageInRead := some ⟨(x.after (m + 1)).cursor, i.ident, x.begun⟩
      begun := x.begun + 1 }) ∧
  ((∀ j, j + 1 < left → s.toRead (x.after (j + 1)).cursor = none) →
    (x.walk = .on → answers { x.after left with
      pageInRead := none, blockRemaining := none, intervalRemaining := some x.interval }) ∧
    (x.walk = .stopping → answers { x.after left with
      pageInRead := none, blockRemaining := none, walk := .off }))

/-- A state with the same walk, in which the same records own the pages to be read. -/
def State.walksAs (u s : State) : Prop :=
  u.scanner = s.scanner ∧ ∀ p, (u.toRead p).map Image.ident = (s.toRead p).map Image.ident

theorem State.walksAs_refl (s : State) : s.walksAs s := ⟨rfl, fun _ => rfl⟩

theorem State.walksAs_marked (s : State) (ident page : Nat) :
    (s.mapImages (Image.marked ident page)).walksAs s := by
  refine ⟨rfl, fun p => ?_⟩
  rw [State.toRead_marked, Option.map_map]
  exact congrArg (Option.map · (s.toRead p)) (funext fun i => Image.marked_ident ident page i)

theorem State.walksAs.toRead_none {u s : State} (h : u.walksAs s) {p : Nat} (hs : s.toRead p = none) :
    u.toRead p = none := by
  have := h.2 p
  rwa [hs, Option.map_none, Option.map_eq_none_iff] at this

theorem State.walksAs.toRead_some {u s : State} (h : u.walksAs s) {p : Nat} {i : Image}
    (hs : s.toRead p = some i) : ∃ j, u.toRead p = some j ∧ j.ident = i.ident := by
  have := h.2 p
  rwa [hs, Option.map_some, Option.map_eq_some_iff] at this

theorem State.walksAs.blockGoesOn {s u : State} {left : Nat} (h : u.walksAs s) (hx : s.scanner.inRange)
    (hl : s.scanner.blockRemaining = some left) (h1 : 1 ≤ left) :
    s.BlockGoesOn left (.next u.endVisit.transmit) u := by
  have hxu : u.scanner.inRange := h.1 ▸ hx
  have hlu : u.scanner.blockRemaining = some left := h.1 ▸ hl
  refine ⟨fun m i hm hpass hread => ?_, fun hpass => ?_⟩
  · obtain ⟨j, hj, hident⟩ := h.toRead_some hread
    rw [State.endVisit_read hxu hlu hm (fun k hk => h.1 ▸ h.toRead_none (hpass k hk)) (h.1 ▸ hj), hident, h.1]
  · have hend := State.endVisit_none hxu hlu h1 fun k hk => h.1 ▸ h.toRead_none (hpass k hk)
    rw [h.1] at hend
    refine ⟨fun hw => ?_, fun hw => ?_⟩
    · have hblock : Scanner.endBlock { s.scanner.after left with pageInRead := none } =
          { s.scanner.after left with
            pageInRead := none, blockRemaining := none, intervalRemaining := some s.scanner.interval } := by
        simp only [Scanner.endBlock, show (s.scanner.after left).walk = .on from hw]
        rfl
      rw [hend, hblock]
      rfl
    · have hblock : Scanner.endBlock { s.scanner.after left with pageInRead := none } =
          { s.scanner.after left with pageInRead := none, blockRemaining := none, walk := .off } := by
        simp only [Scanner.endBlock, show (s.scanner.after left).walk = .stopping from hw]
      rw [hend, hblock]
      rfl

/-! ### The comparison (R191, R192) -/

theorem State.compareRead_dropped {s : State} {r : PageRead}
    (h : (∀ i, s.toRead r.page = some i → i.ident ≠ r.owner) ∨
      crc (s.pageBytes r.page) = s.checkWord r.page) : s.compareRead r = s := by
  unfold State.compareRead
  split
  · rfl
  · rename_i i hi
    rw [if_neg]
    rintro ⟨howner, hcrc⟩
    rcases h with h | h
    · exact h i hi howner
    · exact hcrc h

theorem State.compareRead_marks {s : State} {r : PageRead} {i : Image} (hi : s.toRead r.page = some i)
    (howner : i.ident = r.owner) (hcrc : crc (s.pageBytes r.page) ≠ s.checkWord r.page) :
    s.compareRead r = s.markDamage i r.page := by
  simp only [State.compareRead, hi]
  rw [if_pos ⟨howner, hcrc⟩]

theorem State.markDamage_damaged {s : State} {i : Image} (hd : i.damaged = true) (page : Nat) :
    s.markDamage i page = s.mapImages (Image.marked i.ident page) := by
  simp only [State.markDamage, hd, if_true]

theorem State.markDamage_first {s : State} {i : Image} {h : Nat} {role : ImageRole}
    (hd : i.damaged = false) (hr : s.rolesOf i.ident = [(h, role)]) (page : Nat) :
    s.markDamage i page = (s.mapImages (Image.marked i.ident page)).notify
      (.damage h i.serial role (page - i.firstPage) page) := by
  simp only [State.markDamage, hd, hr]
  rfl

/-- A handle that holds an image is listed. -/
theorem State.mem_handles_of_ne {s : State} {h : Nat} (hn : s.handle h ≠ HandleRecord.empty) :
    (h, s.handle h) ∈ s.handles := by
  unfold State.handle Sparse.get at hn ⊢
  cases hf : Sparse.find s.handles h with
  | none => rw [hf] at hn; exact absurd rfl hn
  | some v => exact Sparse.mem_of_find hf

/-- R192: the place of an image, as its current or incoming image at a handle or as a RETIRED one. -/
theorem State.mem_rolesOf_of_place {s : State} {i : Image} {h : Nat} {role : ImageRole}
    (hp : match role with
      | .current => (s.handle h).current = some i
      | .incoming => (s.handle h).incoming = some i
      | .retired => ∃ e ∈ s.retired, e.image = i ∧ e.origin = h) :
    (h, role) ∈ s.rolesOf i.ident := by
  rw [State.mem_rolesOf]
  cases role with
  | current =>
    exact ⟨_, i, State.mem_handles_of_ne fun hn => (by rw [hn] at hp; cases hp), hp, rfl⟩
  | incoming =>
    exact ⟨_, i, State.mem_handles_of_ne fun hn => (by rw [hn] at hp; cases hp), hp, rfl⟩
  | retired =>
    obtain ⟨e, he, rfl, ho⟩ := hp
    exact ⟨e, he, ho, rfl⟩

/-- R192: the mark on a record, by its phase. -/
theorem Image.marked_ready {i : Image} {g : Integrity} {c : Half} (hp : i.phase = .ready g c) (page : Nat) :
    Image.marked i.ident page i = { i with phase := .ready (g.marked (page - i.firstPage)) c } := by
  simp only [Image.marked, if_true, hp]

theorem Image.marked_retired {i : Image} {g : Integrity} {c : Half} (hp : i.phase = .retired g c)
    (page : Nat) :
    Image.marked i.ident page i = { i with phase := .retired (g.marked (page - i.firstPage)) c } := by
  simp only [Image.marked, if_true, hp]

end Sys2Proof.Machine

namespace Sys2Proof.Proofs
open Machine

/-- Settles O48, by the comparison's three outcomes and the visits that follow each. -/
theorem readsAreCompared : Obligations.ReadsAreCompared := by
  intro id r s hlive hr
  refine ⟨fun hid => exec_scanReadComplete_other hlive hr hid, fun left hid hl h1 hx => ?_,
    fun i c page k n => ⟨fun hp => Image.marked_ready hp page, fun hp => Image.marked_retired hp page,
      fun hp => Image.marked_ready hp page, fun hp => Image.marked_retired hp page⟩⟩
  have hexec := exec_scanReadComplete_named hlive hr hid
  have goesOn : ∀ u : State, u.walksAs s → s.compareRead r = u →
      s.BlockGoesOn left (exec (.scanReadComplete id) s) u := fun u hu hc => by
    rw [hexec, hc]
    exact hu.blockGoesOn hx hl h1
  refine ⟨fun h => goesOn s s.walksAs_refl (State.compareRead_dropped h), fun i hi howner hcrc => ?_⟩
  have hmark := State.compareRead_marks hi howner hcrc
  have hwalks := s.walksAs_marked i.ident r.page
  refine ⟨fun hd => goesOn _ hwalks (hmark.trans (State.markDamage_damaged hd r.page)),
    fun h role hd hrefs hp => ?_⟩
  have hroles := State.rolesOf_eq hrefs.records.1 (State.mem_rolesOf_of_place hp)
  exact goesOn _ hwalks (hmark.trans (State.markDamage_first hd hroles r.page))

end Sys2Proof.Proofs
end

section
/-!
The guard requests (R50 to R53): the lock test, a range before it, the record of a slot on the link, and the
level that LOCK GUARDS leaves in force.
-/
namespace Sys2Proof.Machine

/-! ### The lock test (R52) and the table of R53 -/

theorem GuardTable.accepts_iff (g : GuardTable) :
    g.accepts = true ↔ g.level = .unlocked ∨ (g.level = .line ∧ g.line = true) := by
  unfold GuardTable.accepts
  cases hl : g.level <;> simp

section
variable {g : GuardTable} {target : LockLevel}

theorem GuardTable.lockTo_granted (h : g.level = .unlocked ∨ g.level = target ∨
    (g.level = .line ∧ (target = .frozen ∨ g.line = true))) : g.lockTo target = some target := by
  unfold GuardTable.lockTo
  rcases h with h | h | ⟨h, ht | hline⟩
  · rw [h]
  · rw [h]; cases target <;> rfl
  · rw [h, ht]
  · rw [h, hline]; cases target <;> rfl

theorem GuardTable.lockTo_denied (hne : g.level ≠ target) (h : g.level = .frozen ∨
    (g.level = .line ∧ target = .unlocked ∧ g.line = false)) : g.lockTo target = none := by
  unfold GuardTable.lockTo
  rcases h with h | ⟨h, ht, hline⟩
  · rw [h] at hne ⊢
    cases target with
    | unlocked => rfl
    | line => rfl
    | frozen => exact absurd rfl hne
  · rw [h, ht, hline]; rfl

end

/-! ### Codes and records on the link (R206, R208) -/

theorem LockLevel.ofCode_eq_none {b : Byte} (h : 2 < b.toNat) : LockLevel.ofCode b = none := by
  unfold LockLevel.ofCode
  rw [if_neg, if_neg, if_neg] <;> rintro rfl <;> exact absurd h (by decide)

theorem LockLevel.byte1_code {b : Byte} {l : LockLevel} (h : LockLevel.ofCode b = some l) :
    byte1 l.code = [b] := by
  unfold LockLevel.ofCode at h
  split at h
  · next hb => cases h; rw [hb]; rfl
  · split at h
    · next hb => cases h; rw [hb]; rfl
    · split at h
      · next hb => cases h; rw [hb]; rfl
      · cases h

theorem slotBytes_eq (o : Option GuardRange) : slotBytes o =
    match o with
    | some r => 1 :: (byte2 r.first ++ byte2 r.last ++ [if r.mode = .keep then 1 else 0])
    | none => [0, 0, 0, 0, 0, 0] := by
  cases o with
  | none => rfl
  | some r =>
    obtain ⟨first, last, mode⟩ := r
    cases mode <;> rfl

/-! ### SET GUARD (R50) -/

section
variable {s : State} {slot mode : Byte} {first last : Half}

theorem takeSetGuard_range
    (h : ¬(first.toNat ≤ last.toNat ∧ last.toNat ≤ 32767) ∨ GuardMode.ofCode mode = none) :
    takeSetGuard slot first last mode s = refuse .range s := by
  unfold takeSetGuard
  split
  · split
    · next hpages =>
      obtain ⟨-, hlast, hle⟩ := hpages
      rw [h.resolve_left (not_not_intro ⟨hle, hlast⟩)]
    · rfl
  · rfl

variable {k : Fin 8} {m : GuardMode}

/-- R50, R52: where the range is well formed, the lock test alone decides. -/
theorem takeSetGuard_valid (hslot : slot.toNat = k.val)
    (hv : first.toNat ≤ last.toNat ∧ last.toNat ≤ 32767) (hm : GuardMode.ofCode mode = some m) :
    takeSetGuard slot first last mode s =
      if s.guards.accepts then
        answer .ok (slotBytes s.guards.slots[k]) { s with guards := { s.guards with
          slots := s.guards.slots.set k (some ⟨first.toNat, last.toNat, m⟩) } }
      else refuse .locked s := by
  obtain ⟨k, hk⟩ := k
  obtain rfl : slot.toNat = k := hslot
  obtain ⟨hle, hlast⟩ := hv
  rw [takeSetGuard, dif_pos hk, if_pos ⟨hle.trans hlast, hlast, hle⟩, hm]
  rfl

/-! ### CLEAR GUARD (R51) -/

theorem takeClearGuard_eq (hslot : slot.toNat = k.val) :
    takeClearGuard slot s =
      if s.guards.accepts then
        answer .ok (slotBytes s.guards.slots[k])
          { s with guards := { s.guards with slots := s.guards.slots.set k none } }
      else refuse .locked s := by
  obtain ⟨k, hk⟩ := k
  obtain rfl : slot.toNat = k := hslot
  rw [takeClearGuard, dif_pos hk]
  rfl

end

/-! ### LOCK GUARDS (R53) -/

section
variable {s : State} {level : Byte} {target : LockLevel}

theorem takeLockGuards_range (h : 2 < level.toNat) :
    takeLockGuards level s = answer .range (byte1 s.guards.level.code) s := by
  rw [takeLockGuards, LockLevel.ofCode_eq_none h]

theorem takeLockGuards_denied (ht : LockLevel.ofCode level = some target)
    (hl : s.guards.lockTo target = none) :
    takeLockGuards level s = answer .locked (byte1 s.guards.level.code) s := by
  simp only [takeLockGuards, ht, hl]

theorem takeLockGuards_granted (ht : LockLevel.ofCode level = some target)
    (hl : s.guards.lockTo target = some target) :
    takeLockGuards level s =
      answer .ok [level] { s with guards := { s.guards with level := target } } := by
  simp only [takeLockGuards, ht, hl, LockLevel.byte1_code ht]

end

/-! ### The requests as commands -/

section
variable {s u : State} {tag b mode : Byte} {first last : Half} {p : List Byte}

theorem exec_setGuard (ho : s.open = true) (ht : takeSetGuard b first last mode s = (u, p)) :
    exec (.setGuard tag b first last mode) s = .next (u.withReply 0x18 tag p) := by
  rw [exec_open (take := takeSetGuard b first last mode) rfl rfl rfl ho, ht]

theorem exec_clearGuard (ho : s.open = true) (ht : takeClearGuard b s = (u, p)) :
    exec (.clearGuard tag b) s = .next (u.withReply 0x19 tag p) := by
  rw [exec_open (take := takeClearGuard b) rfl rfl rfl ho, ht]

theorem exec_lockGuards (ho : s.open = true) (ht : takeLockGuards b s = (u, p)) :
    exec (.lockGuards tag b) s = .next (u.withReply 0x1A tag p) := by
  rw [exec_open (take := takeLockGuards b) rfl rfl rfl ho, ht]

end

end Sys2Proof.Machine

namespace Sys2Proof.Proofs
open Machine

/-- Settles O42, by the answers of the three guard requests, the lock test and the table of R53. -/
theorem guardRequests : Obligations.GuardRequests := by
  intro tag mode code first last slot s ho unlocked valid former
  have hslot : (BitVec.ofNat 8 slot.val).toNat = slot.val := by
    rw [BitVec.toNat_ofNat]; omega
  have hformer : slotBytes s.guards.slots[slot] = former := slotBytes_eq _
  have hlock : s.guards.accepts = true ↔ unlocked := s.guards.accepts_iff
  refine ⟨fun h => exec_setGuard ho (takeSetGuard_range h), fun m hv hm hl => exec_setGuard ho ?_,
    fun m hv hm hl => exec_setGuard ho ?_, fun hl => exec_clearGuard ho ?_,
    fun hl => exec_clearGuard ho ?_, fun h => exec_lockGuards ho (takeLockGuards_range h),
    fun target ht => ⟨fun h => ?_, fun hne h => ?_⟩⟩
  · rw [takeSetGuard_valid hslot hv hm, if_neg (mt hlock.mp hl)]
    rfl
  · rw [takeSetGuard_valid hslot hv hm, if_pos (hlock.mpr hl), hformer]
    rfl
  · rw [takeClearGuard_eq hslot, if_neg (mt hlock.mp hl)]
    rfl
  · rw [takeClearGuard_eq hslot, if_pos (hlock.mpr hl), hformer]
    rfl
  · exact exec_lockGuards ho (takeLockGuards_granted ht (GuardTable.lockTo_granted h))
  · exact exec_lockGuards ho (takeLockGuards_denied ht (GuardTable.lockTo_denied hne h))

end Sys2Proof.Proofs
end

section
/-!
The lines that are recorded and the arrival at a trigger line (R52, R118, R119, R125).
-/
namespace Sys2Proof.Machine

/-! ### A change of a line -/

/-- R118: the state in which a trigger line stands at a level. -/
def State.recordLine (s : State) (n : Fin 4) (high : Bool) : State :=
  { s with lines := s.lines.set n { s.lines[n] with high := high } }

theorem exec_triggerLineChange (n : Fin 4) (high : Bool) (s : State) :
    exec (.triggerLineChange n high) s = .next (s.changeTriggerLine n high).transmit := rfl

section
variable {s : State} {n : Fin 4} {high : Bool}

/-- R118: no change of the level, or a change against the edge, is no arrival. -/
theorem State.changeTriggerLine_records (h : s.lines[n].high = high ∨ s.lines[n].falling = high) :
    s.changeTriggerLine n high = s.recordLine n high := by
  unfold State.changeTriggerLine
  refine if_neg fun harrival => ?_
  obtain ⟨⟨-, hchange⟩, hagainst⟩ : ((!s.inReset) = true ∧ (s.lines[n].high != high) = true) ∧
      (high != s.lines[n].falling) = true := by
    simpa only [Bool.and_eq_true] using harrival
  rcases h with h | h
  · exact bne_iff_ne.mp hchange h
  · exact bne_iff_ne.mp hagainst h.symm

/-- R118: a change in the direction of the edge is an arrival. -/
theorem State.changeTriggerLine_arrives (hlive : s.inReset = false)
    (hedge : s.lines[n].high = s.lines[n].falling) :
    s.changeTriggerLine n (!s.lines[n].high) =
      (s.recordLine n (!s.lines[n].high)).triggerArrival n := by
  unfold State.changeTriggerLine
  rw [if_pos (by rw [hlive, ← hedge]; cases s.lines[n].high <;> rfl)]
  rfl

end

/-! ### What an arrival does -/

/-- R119: a channel after an arrival at a line: the line's latch is set where the channel is ARMED, RUNNING or
PAUSED and has the line in its routing. -/
def Channel.arrived (x : Channel) (n : Fin 4) : Channel :=
  if x.engine.run.active = true ∧ x.latches.routing.getLsbD n.val = true then
    { x with latches := { x.latches with trig := x.latches.trig ||| (1#4 <<< n.val) } }
  else x

/-- R119: an arrival sets latches alone, so that the standing tests are those from before it. -/
theorem Channel.engine_arrived (x : Channel) (n : Fin 4) : (x.arrived n).engine = x.engine := by
  unfold Channel.arrived
  split <;> rfl

theorem State.hearsTrigger_iff {s : State} {c : Chan} {n : Fin 4} : s.hearsTrigger c n = true ↔
    (s.chan c).engine.run.active = true ∧ (s.chan c).latches.routing.getLsbD n.val = true := by
  rw [State.hearsTrigger, Bool.and_eq_true]
  rfl

/-- R119: an arrival at one channel. -/
def State.latchTrigger (s : State) (n : Fin 4) (c : Chan) : State :=
  if s.hearsTrigger c n then
    s.setLatches c { s.latches c with trig := (s.latches c).trig ||| (1#4 <<< n.val) }
  else s

theorem State.latchTrigger_eq (s : State) (n : Fin 4) (c : Chan) :
    s.latchTrigger n c = s.setChan c ((s.chan c).arrived n) := by
  unfold State.latchTrigger Channel.arrived
  by_cases h : s.hearsTrigger c n = true
  · rw [if_pos h, if_pos (State.hearsTrigger_iff.mp h)]
    rfl
  · rw [if_neg h, if_neg (mt State.hearsTrigger_iff.mpr h), State.setChan_chan]

/-- R119: the eight channels after an arrival; nothing else has changed. -/
theorem State.eachChannel_latchTrigger (s : State) (n : Fin 4) :
    (∀ c, (s.eachChannel fun c u => u.latchTrigger n c).chan c = (s.chan c).arrived n) ∧
    (s.eachChannel fun c u => u.latchTrigger n c) =
      { s with channels := (s.eachChannel fun c u => u.latchTrigger n c).channels } :=
  s.eachChannel_local (fun c => (s.chan c).arrived n) _ fun c u _ hc => by
    rw [State.latchTrigger_eq, hc]

theorem State.triggerArrival_eq (s : State) (n : Fin 4) :
    s.triggerArrival n = (s.eachChannel fun c u => u.latchTrigger n c).handChanges fun c o =>
      s.hearsTrigger c n && o == .trig n := rfl

/-- R119, R125: an arrival sets the latches of the channels it reaches and hands an operand change to those
whose standing test reads one; nothing else changes. -/
theorem State.triggerArrival_spec (s : State) (n : Fin 4) :
    (∀ c, (s.triggerArrival n).chan c = (s.chan c).arrived n) ∧
    (s.triggerArrival n).handed = s.handed ++ (allChannels.filter fun c => s.hearsTrigger c n &&
      (s.engine c).standing.any fun q => q.operand == .trig n).map Instr.operandChange ∧
    s.triggerArrival n = { s with
      channels := (s.triggerArrival n).channels, handed := (s.triggerArrival n).handed } := by
  obtain ⟨hchan, hframe⟩ := s.eachChannel_latchTrigger n
  rw [State.triggerArrival_eq]
  generalize (s.eachChannel fun c u => u.latchTrigger n c) = u at hchan hframe
  have hengine : ∀ c, u.engine c = s.engine c := fun c =>
    (congrArg Channel.engine (hchan c)).trans (Channel.engine_arrived _ n)
  have hreads : ∀ c, ((u.engine c).standing.any fun q => s.hearsTrigger c n && q.operand == .trig n) =
      (s.hearsTrigger c n && (s.engine c).standing.any fun q => q.operand == .trig n) := fun c => by
    rw [hengine c]
    cases s.hearsTrigger c n <;> cases (s.engine c).standing <;> rfl
  rw [State.handChanges_eq]
  simp only [hreads]
  obtain ⟨channels, rfl⟩ : ∃ channels, u = { s with channels := channels } := ⟨_, hframe⟩
  exact ⟨hchan, rfl, rfl⟩

end Sys2Proof.Machine

namespace Sys2Proof.Proofs
open Machine

/-- Settles O19, by the level that is recorded and by what an arrival sets and hands on. -/
theorem linesAreRecordedAndTriggersArrive : Obligations.LinesAreRecordedAndTriggersArrive := by
  refine ⟨fun n high s => ⟨rfl, fun h => ?_⟩, fun n s hlive hedge => ?_⟩
  · rw [exec_triggerLineChange, State.changeTriggerLine_records h]
    rfl
  · rw [exec_triggerLineChange, State.changeTriggerLine_arrives hlive hedge]
    obtain ⟨hchan, hhanded, hframe⟩ := (s.recordLine n (!s.lines[n].high)).triggerArrival_spec n
    exact ⟨_, rfl, hchan, hhanded, hframe⟩

end Sys2Proof.Proofs
end

section
/-!
The step records (R65, R66, R67, R75): a record as slots of bits, each with a value; the record of a step,
and the checks that read it back.
-/
namespace Sys2Proof.Machine

/-! ### Slots of a record -/

/-- Bits `lo` to `lo + width - 1` of a record, and the value they carry. -/
structure Slot where
  lo : Nat
  width : Nat
  value : Nat

/-- The record in which each slot carries its value and every other bit is 0. -/
def assembled : List Slot → BitVec 64
  | [] => 0#64
  | f :: l => place f.lo f.value ||| assembled l

/-- The bits that the slots cover. -/
def covered : List Slot → BitVec 64
  | [] => 0#64
  | f :: l => bits f.lo f.width ||| covered l

/-- The slot of a record carries its value. -/
def Slot.In (f : Slot) (r : BitVec 64) : Prop := (field r f.lo f.width).toNat = f.value

/-- A record carries the value of each slot. -/
def carries (r : BitVec 64) (l : List Slot) : Prop := ∀ f ∈ l, f.In r

/-- Slots in ascending order from a bit upward, each within the record, with its value within the slot. -/
def laidFrom : Nat → List Slot → Prop
  | _, [] => True
  | low, f :: l => low ≤ f.lo ∧ f.lo + f.width ≤ 64 ∧ f.value < 2 ^ f.width ∧ laidFrom (f.lo + f.width) l

theorem getLsbD_place {lo k : Nat} (v : Nat) (hk : k < 64) :
    (place lo v).getLsbD k = (decide (lo ≤ k) && v.testBit (k - lo)) := by
  have hlt : k - lo < 64 := by omega
  unfold place
  simp only [BitVec.getLsbD_shiftLeft, BitVec.getLsbD_ofNat, hk, hlt, decide_true, Bool.true_and]
  by_cases h : lo ≤ k
  · simp [h]
  · simp [h]

theorem getLsbD_field (r : BitVec 64) (lo n k : Nat) :
    (field r lo n).getLsbD k = (decide (k < n) && r.getLsbD (lo + k)) := by
  simp [field]

/-- A slot's value, placed, is the bits of the record in the slot. -/
theorem place_field (r : BitVec 64) (lo n : Nat) :
    place lo (field r lo n).toNat = r &&& bits lo n := by
  refine BitVec.eq_of_getLsbD_eq fun k hk => ?_
  rw [getLsbD_place _ hk, BitVec.getLsbD_and, getLsbD_bits _ _ hk, BitVec.testBit_toNat, getLsbD_field]
  by_cases hlo : lo ≤ k
  · have hbit : lo + (k - lo) = k := by omega
    have hin : (k - lo < n) ↔ (k < lo + n) := by omega
    simp [hlo, hbit, hin, Bool.and_comm]
  · simp [hlo]

/-- The slots that a record carries assemble to its bits in them. -/
theorem assembled_of_carries {r : BitVec 64} : ∀ {l : List Slot}, carries r l →
    assembled l = r &&& covered l := by
  intro l
  induction l with
  | nil => intro _; simp [assembled, covered]
  | cons f l ih =>
    intro hcarries
    obtain ⟨hv, hrest⟩ := List.forall_mem_cons.mp hcarries
    rw [assembled, covered, ih hrest, ← show (field r f.lo f.width).toNat = f.value from hv, place_field,
      BitVec.and_or_distrib_left]

theorem field_or (a b : BitVec 64) (lo n : Nat) : field (a ||| b) lo n = field a lo n ||| field b lo n := by
  refine BitVec.eq_of_getLsbD_eq fun k hk => ?_
  simp only [getLsbD_field, BitVec.getLsbD_or, Bool.and_or_distrib_left]

theorem bounds_of_laidFrom : ∀ {l : List Slot} {low : Nat}, laidFrom low l →
    ∀ f ∈ l, low ≤ f.lo ∧ f.lo + f.width ≤ 64 := by
  intro l
  induction l with
  | nil => intro low _ f hf; cases hf
  | cons f l ih =>
    intro low h
    obtain ⟨hlow, h64, -, hrest⟩ := h
    refine List.forall_mem_cons.mpr ⟨⟨hlow, h64⟩, fun g hg => ?_⟩
    have := ih hrest g hg
    omega

/-- Below its first slot an assembled record is 0. -/
theorem getLsbD_assembled_below : ∀ {l : List Slot} {low k : Nat}, laidFrom low l → k < low → k < 64 →
    (assembled l).getLsbD k = false := by
  intro l
  induction l with
  | nil => intro low k _ _ _; simp [assembled]
  | cons f l ih =>
    intro low k h hk h64
    obtain ⟨hlow, -, -, hrest⟩ := h
    rw [assembled, BitVec.getLsbD_or, getLsbD_place _ h64, ih hrest (by omega) h64]
    simp
    omega

/-- A slot reads the value placed in it. -/
theorem field_place_self {lo n : Nat} (v : Nat) (h : lo + n ≤ 64) : field (place lo v) lo n = BitVec.ofNat n v := by
  refine BitVec.eq_of_getLsbD_eq fun k hk => ?_
  rw [getLsbD_field, getLsbD_place _ (by omega), BitVec.getLsbD_ofNat]
  simp

/-- A slot reads nothing of a value placed below it. -/
theorem field_place_below {lo n v lo' n' : Nat} (hv : v < 2 ^ n) (h : lo + n ≤ lo') (h' : lo' + n' ≤ 64) :
    field (place lo v) lo' n' = 0 := by
  refine BitVec.eq_of_getLsbD_eq fun k hk => ?_
  have hbit : v.testBit (lo' + k - lo) = false :=
    Nat.testBit_lt_two_pow (hv.trans_le (Nat.pow_le_pow_right (by omega) (by omega)))
  rw [getLsbD_field, getLsbD_place _ (by omega), hbit]
  simp

/-- A slot reads nothing of the slots above it. -/
theorem field_assembled_above {l : List Slot} {lo n : Nat} (h : laidFrom (lo + n) l) (h' : lo + n ≤ 64) :
    field (assembled l) lo n = 0 := by
  refine BitVec.eq_of_getLsbD_eq fun k hk => ?_
  rw [getLsbD_field, getLsbD_assembled_below h (by omega) (by omega)]
  simp

/-- The assembled record carries its slots. -/
theorem carries_assembled : ∀ {l : List Slot} {low : Nat}, laidFrom low l → carries (assembled l) l := by
  intro l
  induction l with
  | nil => intro low _ f hf; cases hf
  | cons f l ih =>
    intro low h
    obtain ⟨-, h64, hv, hrest⟩ := h
    refine List.forall_mem_cons.mpr ⟨?_, fun g hg => ?_⟩
    · rw [Slot.In, assembled, field_or, field_place_self _ h64, field_assembled_above hrest h64]
      simp [Nat.mod_eq_of_lt hv]
    · obtain ⟨hlow, h64'⟩ := bounds_of_laidFrom hrest g hg
      rw [Slot.In, assembled, field_or, field_place_below hv hlow h64']
      simpa [Slot.In] using ih hrest g hg

/-- A record has no bit set outside a mask where the mask leaves it as it is. -/
theorem and_not_eq_zero_iff (r m : BitVec 64) : r &&& ~~~m = 0 ↔ r &&& m = r := by
  have hbits : r &&& m ||| r &&& ~~~m = r := by
    rw [← BitVec.and_or_distrib_left, BitVec.or_not_self, BitVec.and_allOnes]
  constructor
  · intro h
    rw [h] at hbits
    simpa using hbits
  · intro h
    rw [← h, BitVec.and_assoc, BitVec.and_not_self]
    simp

/-! ### Codes of the fields (R66, R67) -/

theorem toNat_field (r : BitVec 64) (lo n : Nat) : (field r lo n).toNat = r.toNat / 2 ^ lo % 2 ^ n := by
  rw [field, BitVec.extractLsb'_toNat, Nat.shiftRight_eq_div_pow]

/-- A field one bit wider has that bit on top. -/
theorem toNat_field_succ (r : BitVec 64) (lo n : Nat) :
    (field r lo (n + 1)).toNat = (field r lo n).toNat + 2 ^ n * (r.getLsbD (lo + n)).toNat := by
  rw [toNat_field, toNat_field, Nat.mod_pow_succ, BitVec.getLsbD, Nat.testBit_eq_decide_div_mod_eq,
    Nat.pow_add, ← Nat.div_div_eq_div_mul]
  congr 2
  rcases Nat.mod_two_eq_zero_or_one (r.toNat / 2 ^ lo / 2 ^ n) with h | h <;> simp [h]

/-- A field of one bit is the bit. -/
theorem toNat_field_one (r : BitVec 64) (lo : Nat) :
    (field r lo 1).toNat = if r.getLsbD lo then 1 else 0 := by
  rw [toNat_field_succ, toNat_field]
  cases r.getLsbD lo <;> simp [Nat.mod_one]

theorem Operand.code_lt (o : Operand) : o.code < 16 := by
  cases o <;> simp only [Operand.code] <;> omega

/-- R67: the codes 0 to 15 name conditions, and no other does. -/
theorem Operand.ofCode_eq_none {k : Nat} : Operand.ofCode k = none ↔ 15 < k := by
  have hnamed : ∀ k < 16, (Operand.ofCode k).isSome = true := by decide
  constructor
  · intro h
    by_contra hk
    have := hnamed k (by omega)
    rw [h] at this
    cases this
  · intro h
    unfold Operand.ofCode
    rw [dif_neg (by omega), if_neg (by omega), dif_neg (by omega), if_neg (by omega), if_neg (by omega),
      if_neg (by omega)]

theorem Operand.ofCode_eq_some {k : Nat} {o : Operand} : Operand.ofCode k = some o ↔ k = o.code := by
  have hback : ∀ k < 16, (Operand.ofCode k).map Operand.code = some k := by decide
  have hcode : ∀ o : Operand, Operand.ofCode o.code = some o := fun o => by
    cases o with
    | trig n => revert n; decide
    | flag n => revert n; decide
    | soft => rfl
    | timer => rfl
    | last => rfl
    | always => rfl
  constructor
  · intro h
    have hk : ¬15 < k := fun hk => by rw [Operand.ofCode_eq_none.mpr hk] at h; cases h
    have := hback k (by omega)
    rw [h] at this
    exact (Option.some.inj this).symm
  · rintro rfl
    exact hcode o

/-- R67: the six bits of a condition field carry the condition. -/
theorem conditionField_eq_some {r : BitVec 64} {lo : Nat} {q : Condition} :
    conditionField r lo = some q ↔ (field r lo 6).toNat = q.bits := by
  have hcode := q.operand.code_lt
  have hlow := (field r lo 5).isLt
  rw [conditionField, Condition.ofCode, Option.map_eq_some_iff, toNat_field_succ r lo 5, Condition.bits]
  obtain ⟨o, n⟩ := q
  simp only at hcode
  constructor
  · rintro ⟨p, hp, hq⟩
    obtain ⟨rfl, rfl⟩ := Condition.mk.inj hq
    rw [Operand.ofCode_eq_some.mp hp]
    cases r.getLsbD (lo + 5) <;> rfl
  · intro h
    have hsense : r.getLsbD (lo + 5) = n := by
      generalize r.getLsbD (lo + 5) = b at h
      cases b <;> cases n <;> simp at h ⊢ <;> omega
    rw [hsense] at h ⊢
    refine ⟨o, Operand.ofCode_eq_some.mpr ?_, rfl⟩
    cases n <;> simpa using h

theorem conditionField_eq_none {r : BitVec 64} {lo : Nat} :
    conditionField r lo = none ↔ 15 < (field r lo 5).toNat := by
  rw [conditionField, Condition.ofCode, Option.map_eq_none_iff, Operand.ofCode_eq_none]

theorem MarkerAction.ofCode_eq_some {k : Nat} {a : MarkerAction} :
    MarkerAction.ofCode k = some a ↔ k = a.code := by
  unfold MarkerAction.ofCode
  constructor
  · intro h
    split at h
    · obtain rfl := Option.some.inj h; assumption
    · split at h
      · obtain rfl := Option.some.inj h; assumption
      · split at h
        · obtain rfl := Option.some.inj h; assumption
        · cases h
  · rintro rfl
    cases a <;> rfl

theorem FlagAction.ofCode_eq_some {k : Nat} {a : FlagAction} :
    FlagAction.ofCode k = some a ↔ k = a.code := by
  unfold FlagAction.ofCode
  constructor
  · intro h
    split at h
    · obtain rfl := Option.some.inj h; assumption
    · split at h
      · obtain rfl := Option.some.inj h; assumption
      · split at h
        · obtain rfl := Option.some.inj h; assumption
        · cases h
  · rintro rfl
    cases a <;> rfl

theorem MarkerAction.code_lt (a : MarkerAction) : a.code < 4 := by
  cases a <;> simp [MarkerAction.code]

theorem FlagAction.code_lt (a : FlagAction) : a.code < 256 := by
  cases a <;> simp [FlagAction.code]

theorem Condition.bits_lt (q : Condition) : q.bits < 64 := by
  have := q.operand.code_lt
  unfold Condition.bits
  split <;> omega

/-! ### The slots of a step (R66) -/

/-- An indicator bit of a record. -/
def indicator (lo : Nat) (b : Bool) : Slot := ⟨lo, 1, if b then 1 else 0⟩

/-- A field that the form of a record may leave out: a slot of no bits where it is absent. -/
def optionalSlot (lo width : Nat) (v : Option Nat) : Slot := ⟨lo, if v.isSome then width else 0, v.getD 0⟩

/-- R66: what the record of a step carries, slot by slot. -/
def Step.slots : Step → List Slot
  | .stop => [⟨0, 4, 0⟩]
  | .play h n aStart aEnd bStart bEnd scale hold =>
    [⟨0, 4, 1⟩, indicator 4 scale.isSome, indicator 5 hold.isSome, ⟨8, 2, aStart.code⟩, ⟨10, 2, aEnd.code⟩,
      ⟨12, 2, bStart.code⟩, ⟨14, 2, bEnd.code⟩, ⟨16, 10, h.toNat⟩,
      optionalSlot 26 6 (hold.map Condition.bits), ⟨32, 16, n.toNat⟩, optionalSlot 48 16 (scale.map BitVec.toNat)]
  | .loop last (.count n) => [⟨0, 4, 2⟩, indicator 4 false, ⟨16, 12, last.toNat⟩, ⟨32, 16, n.toNat⟩]
  | .loop last (.condition q) => [⟨0, 4, 2⟩, indicator 4 true, ⟨8, 6, q.bits⟩, ⟨16, 12, last.toNat⟩]
  | .branch q target leave =>
    [⟨0, 4, 3⟩, indicator 4 leave, ⟨8, 6, q.bits⟩, ⟨16, 12, target.toNat⟩]
  | .call target => [⟨0, 4, 4⟩, ⟨16, 12, target.toNat⟩]
  | .ret => [⟨0, 4, 5⟩]
  | .wait q out => [⟨0, 4, 6⟩, indicator 4 (decide (out = .rest)), ⟨8, 6, q.bits⟩]
  | .timer preset tap => [⟨0, 4, 7⟩, ⟨8, 8, tap.val⟩, ⟨32, 16, preset.toNat⟩]
  | .signal flag notify code =>
    [⟨0, 4, 8⟩, indicator 4 flag.isSome, indicator 5 notify, optionalSlot 8 8 (flag.map fun x => x.1.val),
      optionalSlot 16 8 (flag.map fun x => x.2.code), ⟨24, 8, code.toNat⟩]

theorem indicator_in {lo : Nat} {b : Bool} {r : BitVec 64} : (indicator lo b).In r ↔ r.getLsbD lo = b := by
  simp only [Slot.In, indicator, toNat_field_one]
  generalize r.getLsbD lo = v
  revert v b
  decide

theorem optionalSlot_in {α : Type} {lo width : Nat} {v : Option α} {f : α → Nat} {r : BitVec 64} :
    (optionalSlot lo width (v.map f)).In r ↔ ∀ a, v = some a → (field r lo width).toNat = f a := by
  cases v with
  | none => simp [Slot.In, optionalSlot, toNat_field, Nat.mod_one]
  | some a => simp [Slot.In, optionalSlot]

theorem place_zero (lo : Nat) : place lo 0 = 0#64 := by simp [place]

/-- The record of a step carries its slots and nothing else. -/
theorem Step.record_eq (x : Step) : x.record = assembled x.slots := by
  cases x with
  | stop => simp only [Step.record, Step.slots, assembled, place_zero, BitVec.or_zero]; rfl
  | loop last ending =>
    cases ending <;>
      simp only [Step.record, Step.slots, assembled, indicator, BitVec.or_assoc, BitVec.or_zero,
        BitVec.zero_or, place_zero, if_true, if_false, Bool.false_eq_true]
  | _ =>
    simp only [Step.record, Step.slots, assembled, indicator, optionalSlot, BitVec.or_assoc, BitVec.or_zero,
      decide_eq_true_eq]

/-- R66: the slots of a step lie in the record one above the other, and hold their values. -/
theorem Step.slots_laid (x : Step) : laidFrom 0 x.slots := by
  have hhalf : ∀ n : Half, n.toNat < 65536 := BitVec.isLt
  have hbyte : ∀ n : Byte, n.toNat < 256 := BitVec.isLt
  have hindex : ∀ n : BitVec 12, n.toNat < 4096 := BitVec.isLt
  have hhandle : ∀ n : BitVec 10, n.toNat < 1024 := BitVec.isLt
  have hnumber : ∀ n : Fin 8, n.val < 256 := fun n => n.isLt.trans (by decide)
  have hsense : ∀ b : Bool, (if b = true then 1 else 0) < 2 := by decide
  cases x with
  | loop last ending =>
    cases ending <;> simp [Step.slots, laidFrom, indicator, Condition.bits_lt, hhalf, hindex]
  | play a n aStart aEnd bStart bEnd scale hold =>
    cases scale <;> cases hold <;>
      simp [Step.slots, laidFrom, indicator, optionalSlot, MarkerAction.code_lt, Condition.bits_lt, hhalf, hhandle]
  | signal flag notify code =>
    cases flag <;>
      simp [Step.slots, laidFrom, indicator, optionalSlot, FlagAction.code_lt, hsense, hbyte, hnumber]
  | wait q out => cases out <;> simp [Step.slots, laidFrom, indicator, Condition.bits_lt]
  | _ => simp [Step.slots, laidFrom, indicator, Condition.bits_lt, hsense, hhalf, hindex, hnumber]

theorem Step.carries_record (x : Step) : carries x.record x.slots := by
  rw [x.record_eq]
  exact carries_assembled x.slots_laid

/-- R65, R66: the layout assigns to a record of this kind and form the bits of the step's slots. -/
theorem Step.assignedBits_eq {x : Step} {r : BitVec 64} (h : carries r x.slots) :
    assignedBits r = covered x.slots := by
  unfold assignedBits
  cases x with
  | play a n aStart aEnd bStart bEnd scale hold =>
    obtain ⟨hkind, hscale, hhold, -⟩ := by simpa only [Step.slots, carries, List.forall_mem_cons] using h
    rw [show (field r 0 4).toNat = 1 from hkind, indicator_in.mp hscale, indicator_in.mp hhold]
    simp only [Step.slots, covered, indicator, optionalSlot, Option.isSome_map]
    generalize scale.isSome = withScale, hold.isSome = withHold
    revert withScale withHold
    decide
  | loop last ending =>
    cases ending <;>
      obtain ⟨hkind, hform, -⟩ := by simpa only [Step.slots, carries, List.forall_mem_cons] using h
    all_goals
      rw [show (field r 0 4).toNat = 2 from hkind, indicator_in.mp hform]
      simp only [Step.slots, covered, indicator]
      decide
  | signal flag notify code =>
    obtain ⟨hkind, hflag, -⟩ := by simpa only [Step.slots, carries, List.forall_mem_cons] using h
    rw [show (field r 0 4).toNat = 8 from hkind, indicator_in.mp hflag]
    simp only [Step.slots, covered, indicator, optionalSlot, Option.isSome_map]
    generalize flag.isSome = withFlag
    revert withFlag
    decide
  | _ =>
    have hkind := (List.forall_mem_cons.mp h).1
    simp only [Slot.In] at hkind
    rw [hkind]
    simp only [Step.slots, covered, indicator]
    decide

/-! ### What a record that passes carries (R75) -/

section
variable {r : BitVec 64}

/-- What the checks read in the fields of the record of a step. -/
def Step.ReadFrom (r : BitVec 64) : Step → Prop
  | .stop => (field r 0 4).toNat = 0
  | .play h n aStart aEnd bStart bEnd scale hold =>
    (field r 0 4).toNat = 1 ∧ r.getLsbD 4 = scale.isSome ∧ r.getLsbD 5 = hold.isSome ∧
      MarkerAction.ofCode (field r 8 2).toNat = some aStart ∧
      MarkerAction.ofCode (field r 10 2).toNat = some aEnd ∧
      MarkerAction.ofCode (field r 12 2).toNat = some bStart ∧
      MarkerAction.ofCode (field r 14 2).toNat = some bEnd ∧ field r 16 10 = h ∧
      (∀ q, hold = some q → conditionField r 26 = some q) ∧ field r 32 16 = n ∧
      ∀ v, scale = some v → field r 48 16 = v
  | .loop last (.count n) =>
    (field r 0 4).toNat = 2 ∧ r.getLsbD 4 = false ∧ field r 16 12 = last ∧ field r 32 16 = n
  | .loop last (.condition q) =>
    (field r 0 4).toNat = 2 ∧ r.getLsbD 4 = true ∧ conditionField r 8 = some q ∧ field r 16 12 = last
  | .branch q target leave =>
    (field r 0 4).toNat = 3 ∧ r.getLsbD 4 = leave ∧ conditionField r 8 = some q ∧ field r 16 12 = target
  | .call target => (field r 0 4).toNat = 4 ∧ field r 16 12 = target
  | .ret => (field r 0 4).toNat = 5
  | .wait q out =>
    (field r 0 4).toNat = 6 ∧ r.getLsbD 4 = decide (out = .rest) ∧ conditionField r 8 = some q
  | .timer preset tap =>
    (field r 0 4).toNat = 7 ∧ (field r 8 8).toNat = tap.val ∧ field r 32 16 = preset
  | .signal flag notify code =>
    (field r 0 4).toNat = 8 ∧ r.getLsbD 4 = flag.isSome ∧ r.getLsbD 5 = notify ∧
      (∀ x, flag = some x → (field r 8 8).toNat = x.1.val) ∧
      (∀ x, flag = some x → FlagAction.ofCode (field r 16 8).toNat = some x.2) ∧ field r 24 8 = code

theorem carries_cons {f : Slot} {l : List Slot} : carries r (f :: l) ↔ f.In r ∧ carries r l :=
  List.forall_mem_cons

theorem carries_nil : carries r [] ↔ True := iff_true_intro (List.forall_mem_nil _)

theorem slot_in {lo width v : Nat} : (Slot.mk lo width v).In r ↔ (field r lo width).toNat = v := Iff.rfl

/-- The checks read a step where the record carries its slots. -/
theorem Step.readFrom_iff {x : Step} : x.ReadFrom r ↔ carries r x.slots := by
  cases x with
  | loop last ending =>
    cases ending <;>
      simp only [Step.ReadFrom, Step.slots, carries_cons, carries_nil, and_true, slot_in, indicator_in,
        conditionField_eq_some, BitVec.toNat_inj]
  | _ =>
    simp only [Step.ReadFrom, Step.slots, carries_cons, carries_nil, and_true, slot_in, indicator_in,
      optionalSlot_in, MarkerAction.ofCode_eq_some, FlagAction.ofCode_eq_some, conditionField_eq_some,
      BitVec.toNat_inj]

variable {x : Step}

theorem checkPlay_ok (hkind : (field r 0 4).toNat = 1) (h : checkPlay r = .ok x) : x.Wf ∧ x.ReadFrom r := by
  unfold checkPlay at h
  split at h
  · cases h
  · rename_i hcount
    split at h
    · rename_i h1 h2 h3 h4
      simp only at h
      have hscale : r.getLsbD 4 = (if r.getLsbD 4 then some (field r 48 16) else none).isSome := by
        cases r.getLsbD 4 <;> rfl
      have hvalue : ∀ v, (if r.getLsbD 4 then some (field r 48 16) else none) = some v → field r 48 16 = v := by
        cases r.getLsbD 4 <;> simp
      split at h
      · rename_i hhold
        split at h
        · rename_i q hq
          obtain rfl := Except.ok.inj h
          exact ⟨hcount, hkind, hscale, hhold, h1, h2, h3, h4, rfl, fun p hp => Option.some.inj hp ▸ hq,
            rfl, hvalue⟩
        · cases h
      · rename_i hhold
        obtain rfl := Except.ok.inj h
        exact ⟨hcount, hkind, hscale, Bool.eq_false_iff.mpr hhold, h1, h2, h3, h4, rfl, fun p hp => (by cases hp),
          rfl, hvalue⟩
    · cases h

theorem checkLoop_ok (hkind : (field r 0 4).toNat = 2) (h : checkLoop r = .ok x) : x.Wf ∧ x.ReadFrom r := by
  unfold checkLoop at h
  split at h
  · rename_i hform
    split at h
    · rename_i q hq
      obtain rfl := Except.ok.inj h
      exact ⟨trivial, hkind, hform, hq, rfl⟩
    · cases h
  · rename_i hform
    split at h
    · cases h
    · rename_i hcount
      obtain rfl := Except.ok.inj h
      exact ⟨hcount, hkind, Bool.eq_false_iff.mpr hform, rfl, rfl⟩

theorem checkTimer_ok (hkind : (field r 0 4).toNat = 7) (h : checkTimer r = .ok x) : x.Wf ∧ x.ReadFrom r := by
  unfold checkTimer at h
  split at h
  · cases h
  · rename_i hpreset
    split at h
    · obtain rfl := Except.ok.inj h
      exact ⟨hpreset, hkind, rfl, rfl⟩
    · cases h

theorem checkSignal_ok (hkind : (field r 0 4).toNat = 8) (h : checkSignal r = .ok x) : x.Wf ∧ x.ReadFrom r := by
  unfold checkSignal at h
  split at h
  · rename_i hform
    split at h
    · split at h
      · rename_i a ha
        obtain rfl := Except.ok.inj h
        exact ⟨trivial, hkind, hform, rfl, fun y hy => Option.some.inj hy ▸ rfl,
          fun y hy => Option.some.inj hy ▸ ha, rfl⟩
      · cases h
    · cases h
  · rename_i hform
    obtain rfl := Except.ok.inj h
    exact ⟨trivial, hkind, Bool.eq_false_iff.mpr hform, rfl, fun y hy => (by cases hy),
      fun y hy => (by cases hy), rfl⟩

/-- R75: a record that passes has no other bit set, and its fields are those of its step. -/
theorem checkRecord_ok (h : checkRecord r = .ok x) :
    r &&& ~~~assignedBits r = 0 ∧ x.Wf ∧ x.ReadFrom r := by
  unfold checkRecord at h
  split at h
  · cases h
  · rename_i hknown
    split at h
    · cases h
    · rename_i hreserved
      refine ⟨not_not.mp hreserved, ?_⟩
      split at h
      · rename_i hkind
        obtain rfl := Except.ok.inj h
        exact ⟨trivial, hkind⟩
      · rename_i hkind
        exact checkPlay_ok hkind h
      · rename_i hkind
        exact checkLoop_ok hkind h
      · rename_i hkind
        split at h
        · rename_i q hq
          obtain rfl := Except.ok.inj h
          exact ⟨trivial, hkind, rfl, hq, rfl⟩
        · cases h
      · rename_i hkind
        obtain rfl := Except.ok.inj h
        exact ⟨trivial, hkind, rfl⟩
      · rename_i hkind
        obtain rfl := Except.ok.inj h
        exact ⟨trivial, hkind⟩
      · rename_i hkind
        split at h
        · rename_i q hq
          obtain rfl := Except.ok.inj h
          exact ⟨trivial, hkind, by cases r.getLsbD 4 <;> rfl, hq⟩
        · cases h
      · rename_i hkind
        exact checkTimer_ok hkind h
      · rename_i h0 h1 h2 h3 h4 h5 h6 h7
        refine checkSignal_ok ?_ h
        simp only [imp_false] at h0 h1 h2 h3 h4 h5 h6 h7
        omega

theorem wf_of_checkRecord (h : checkRecord r = .ok x) : x.Wf := by
  obtain ⟨-, hwf, -⟩ := checkRecord_ok h
  exact hwf

/-- R65, R75: a record in which no other bit is set passes as each checked step that its fields are those of. -/
theorem checkRecord_of_readFrom (hx : x.Wf) (hr : r &&& ~~~assignedBits r = 0) (h : x.ReadFrom r) :
    checkRecord r = .ok x := by
  unfold checkRecord
  cases x with
  | stop =>
    have hkind : (field r 0 4).toNat = 0 := h
    simp [hkind, hr]
  | play a n aStart aEnd bStart bEnd scale hold =>
    obtain ⟨hkind, hscale, hhold, h1, h2, h3, h4, rfl, hq, rfl, hv⟩ := h
    have hcount : field r 32 16 ≠ 0 := hx
    simp only [hkind, hr, checkPlay, hcount, h1, h2, h3, h4, hscale, hhold]
    cases scale <;> cases hold <;> simp [hq, hv]
  | loop last ending =>
    cases ending with
    | count n =>
      obtain ⟨hkind, hform, rfl, rfl⟩ := h
      have hcount : field r 32 16 ≠ 0 := hx
      simp only [hkind, hr, checkLoop, hcount, hform]
      simp
    | condition q =>
      obtain ⟨hkind, hform, hq, rfl⟩ := h
      simp only [hkind, hr, checkLoop, hform, hq]
      simp
  | branch q target leave =>
    obtain ⟨hkind, rfl, hq, rfl⟩ := h
    simp [hkind, hr, hq]
  | call target =>
    obtain ⟨hkind, rfl⟩ := h
    simp [hkind, hr]
  | ret =>
    have hkind : (field r 0 4).toNat = 5 := h
    simp [hkind, hr]
  | wait q out =>
    obtain ⟨hkind, hout, hq⟩ := h
    simp only [hkind, hr, hq, hout]
    cases out <;> simp
  | timer preset tap =>
    obtain ⟨hkind, htap, rfl⟩ := h
    have hpreset : field r 32 16 ≠ 0 := hx
    simp only [hkind, hr, checkTimer, hpreset, htap, tap.isLt]
    simp
  | signal flag notify code =>
    obtain ⟨hkind, hflag, rfl, hn, ha, rfl⟩ := h
    simp only [hkind, hr, checkSignal, hflag]
    cases flag with
    | none => simp
    | some y =>
      have hlt := y.1.isLt
      simp [hn y rfl, ha y rfl, hlt]

/-- R65: the record of a checked step passes, and gives the step back. -/
theorem checkRecord_record (hx : x.Wf) : checkRecord x.record = .ok x := by
  have hc := x.carries_record
  refine checkRecord_of_readFrom hx ((and_not_eq_zero_iff _ _).mpr ?_) (Step.readFrom_iff.mpr hc)
  rw [Step.assignedBits_eq hc, ← assembled_of_carries hc, x.record_eq]

/-- R65: a record that passes is the record of the step that it gives. -/
theorem record_of_checkRecord (h : checkRecord r = .ok x) : x.record = r := by
  obtain ⟨hr, -, hread⟩ := checkRecord_ok h
  have hc := Step.readFrom_iff.mp hread
  rw [x.record_eq, assembled_of_carries hc, ← Step.assignedBits_eq hc, (and_not_eq_zero_iff _ _).mp hr]

end

end Sys2Proof.Machine
end

section
/-!
The checks of a record (R75) over its bits: which bits the layout assigns, what fails each check, and that a
record is refused for the first check that it fails.
-/
namespace Sys2Proof.Machine

section
variable {r : BitVec 64}

/-- R65, R66: the layout of the record's kind and form assigns a bit to a field. -/
def layoutAssigns (r : BitVec 64) (k : Nat) : Prop :=
  let kind := (field r 0 4).toNat
  let bit (k : Nat) : Prop := r.getLsbD k = true
  let within (k first last : Nat) : Prop := first ≤ k ∧ k ≤ last
  k ≤ 3 ∨
    (kind = 1 ∧ (k = 4 ∨ k = 5 ∨ within k 8 15 ∨ within k 16 25 ∨ (bit 5 ∧ within k 26 31) ∨
      within k 32 47 ∨ (bit 4 ∧ within k 48 63))) ∨
    (kind = 2 ∧ (k = 4 ∨ (bit 4 ∧ within k 8 13) ∨ within k 16 27 ∨ (¬bit 4 ∧ within k 32 47))) ∨
    (kind = 3 ∧ (k = 4 ∨ within k 8 13 ∨ within k 16 27)) ∨
    (kind = 4 ∧ within k 16 27) ∨
    (kind = 6 ∧ (k = 4 ∨ within k 8 13)) ∨
    (kind = 7 ∧ (within k 8 15 ∨ within k 32 47)) ∨
    (kind = 8 ∧ (k = 4 ∨ k = 5 ∨ (bit 4 ∧ within k 8 23) ∨ within k 24 31))

/-- R75: the record fails the check of a reason. -/
def RecordFails (r : BitVec 64) : StepReason → Prop
  | .kind => 9 ≤ (field r 0 4).toNat
  | .reserved => ∃ k, k < 64 ∧ r.getLsbD k = true ∧ ¬layoutAssigns r k
  | .count =>
    ((field r 0 4).toNat = 1 ∨ ((field r 0 4).toNat = 2 ∧ ¬r.getLsbD 4 = true)) ∧ field r 32 16 = 0
  | .preset => (field r 0 4).toNat = 7 ∧ field r 32 16 = 0
  | .tap => (field r 0 4).toNat = 7 ∧ 7 < (field r 8 8).toNat
  | .flag => (field r 0 4).toNat = 8 ∧ r.getLsbD 4 = true ∧ 7 < (field r 8 8).toNat
  | .action =>
    ((field r 0 4).toNat = 1 ∧
      (field r 8 2 = 3 ∨ field r 10 2 = 3 ∨ field r 12 2 = 3 ∨ field r 14 2 = 3)) ∨
    ((field r 0 4).toNat = 8 ∧ r.getLsbD 4 = true ∧ 2 < (field r 16 8).toNat)
  | .condition =>
    ((field r 0 4).toNat = 1 ∧ r.getLsbD 5 = true ∧ 15 < (field r 26 5).toNat) ∨
    ((((field r 0 4).toNat = 2 ∧ r.getLsbD 4 = true) ∨ (field r 0 4).toNat = 3 ∨ (field r 0 4).toNat = 6) ∧
      15 < (field r 8 5).toNat)

/-- R75: the check of the reason fails, and none before it does. -/
def FirstFailure (r : BitVec 64) (reason : StepReason) : Prop :=
  RecordFails r reason ∧ ∀ other, other.code < reason.code → ¬RecordFails r other

theorem StepReason.code_injective {a b : StepReason} (h : a.code = b.code) : a = b := by
  cases a <;> cases b <;> simp [StepReason.code] at h ⊢

/-- A record fails one check first. -/
theorem FirstFailure.unique {a b : StepReason} (ha : FirstFailure r a) (hb : FirstFailure r b) : a = b := by
  obtain ⟨hfa, hna⟩ := ha
  obtain ⟨hfb, hnb⟩ := hb
  rcases lt_trichotomy a.code b.code with h | h | h
  · exact absurd hfa (hnb a h)
  · exact StepReason.code_injective h
  · exact absurd hfb (hna b h)

theorem getLsbD_assignedBits_iff {k : Nat} (hk : k < 64) :
    (assignedBits r).getLsbD k = true ↔ layoutAssigns r k := by
  rw [getLsbD_assignedBits r hk]
  simp only [layoutAssigns]
  generalize (field r 0 4).toNat = kind
  generalize r.getLsbD 4 = four
  generalize r.getLsbD 5 = five
  split
  case h_8 h1 h2 h3 h4 h6 h7 h8 =>
    simp only [imp_false] at h1 h2 h3 h4 h6 h7 h8
    simp only [h1, h2, h3, h4, h6, h7, h8, false_and, or_false]
    omega
  all_goals
    cases four <;> cases five <;>
      simp only [if_true, if_false, Bool.false_eq_true, true_and, false_and, false_or, or_false,
        not_true_eq_false, not_false_eq_true, Nat.reduceEqDiff, OfNat.ofNat_ne_one, OfNat.one_ne_ofNat] <;>
      omega

theorem recordFails_reserved : RecordFails r .reserved ↔ r &&& ~~~assignedBits r ≠ 0 := by
  rw [reserved_iff]
  refine exists_congr fun k => and_congr_right fun hk => and_congr_right fun _ => not_congr ?_
  exact (getLsbD_assignedBits_iff hk).symm

/-! ### The reason of a refusal -/

/-- Past the checks KIND and RESERVED a refusal rests on the checks between. -/
theorem FirstFailure.of_fields {reason : StepReason} (hknown : ¬9 ≤ (field r 0 4).toNat)
    (hr : r &&& ~~~assignedBits r = 0) (hfails : RecordFails r reason)
    (hbefore : ∀ other, 2 < other.code → other.code < reason.code → ¬RecordFails r other) :
    FirstFailure r reason := by
  refine ⟨hfails, fun other hlt => ?_⟩
  cases other with
  | kind => exact hknown
  | reserved => rw [recordFails_reserved]; exact not_not.mpr hr
  | _ => exact hbefore _ (by decide) hlt

/-- The codes that a marker action has. -/
theorem MarkerAction.isSome_ofCode {k : BitVec 2} : (MarkerAction.ofCode k.toNat).isSome = true ↔ k ≠ 3 := by
  revert k
  decide

theorem FlagAction.ofCode_eq_none {k : Nat} : FlagAction.ofCode k = none ↔ 2 < k := by
  unfold FlagAction.ofCode
  constructor
  · intro h
    by_contra hn
    interval_cases k <;> cases h
  · intro h
    rw [if_neg (by omega), if_neg (by omega), if_neg (by omega)]

variable {reason : StepReason}

/-- R75, ACTION for a PLAY: the four marker actions have codes exactly where the check does not fail. -/
theorem recordFails_action_play (hkind : (field r 0 4).toNat = 1) :
    RecordFails r .action ↔ ¬((MarkerAction.ofCode (field r 8 2).toNat).isSome = true ∧
      (MarkerAction.ofCode (field r 10 2).toNat).isSome = true ∧
      (MarkerAction.ofCode (field r 12 2).toNat).isSome = true ∧
      (MarkerAction.ofCode (field r 14 2).toNat).isSome = true) := by
  simp only [RecordFails, hkind, MarkerAction.isSome_ofCode, not_and_or, not_not]
  simp

theorem checkPlay_error (hkind : (field r 0 4).toNat = 1) (hr : r &&& ~~~assignedBits r = 0)
    (h : checkPlay r = .error reason) : FirstFailure r reason := by
  have hknown : ¬9 ≤ (field r 0 4).toNat := by omega
  unfold checkPlay at h
  split at h
  · rename_i hcount
    obtain rfl := Except.error.inj h
    refine .of_fields hknown hr ⟨Or.inl hkind, hcount⟩ fun other h2 h3 => ?_
    cases other <;> simp [StepReason.code] at h2 h3
  · rename_i hcount
    split at h
    · rename_i h1 h2 h3 h4
      have haction : ¬RecordFails r .action := by simp [recordFails_action_play hkind, h1, h2, h3, h4]
      simp only at h
      split at h
      · rename_i hhold
        split at h
        · cases h
        · rename_i hq
          obtain rfl := Except.error.inj h
          refine .of_fields hknown hr (Or.inl ⟨hkind, hhold, conditionField_eq_none.mp hq⟩) fun other h2 h3 => ?_
          cases other with
          | count => exact fun ⟨_, h0⟩ => hcount h0
          | action => exact haction
          | _ => simp [StepReason.code, RecordFails, hkind] at h2 h3 ⊢
      · cases h
    · rename_i hactions
      obtain rfl := Except.error.inj h
      refine .of_fields hknown hr ((recordFails_action_play hkind).mpr ?_) fun other h2 h3 => ?_
      · simp only [Option.isSome_iff_exists]
        rintro ⟨⟨a1, h1⟩, ⟨a2, h2⟩, ⟨a3, h3⟩, ⟨a4, h4⟩⟩
        exact hactions _ _ _ _ h1 h2 h3 h4
      · cases other with
        | count => exact fun ⟨_, h0⟩ => hcount h0
        | _ => simp [StepReason.code, RecordFails, hkind] at h2 h3 ⊢

theorem checkLoop_error (hkind : (field r 0 4).toNat = 2) (hr : r &&& ~~~assignedBits r = 0)
    (h : checkLoop r = .error reason) : FirstFailure r reason := by
  have hknown : ¬9 ≤ (field r 0 4).toNat := by omega
  unfold checkLoop at h
  split at h
  · rename_i hform
    split at h
    · cases h
    · rename_i hq
      obtain rfl := Except.error.inj h
      refine .of_fields hknown hr (Or.inr ⟨Or.inl ⟨hkind, hform⟩, conditionField_eq_none.mp hq⟩)
        fun other h2 h3 => ?_
      cases other <;> simp only [StepReason.code, RecordFails, hkind, hform] at h2 h3 ⊢ <;> simp at h2 h3 ⊢
  · rename_i hform
    split at h
    · rename_i hcount
      obtain rfl := Except.error.inj h
      refine .of_fields hknown hr ⟨Or.inr ⟨hkind, hform⟩, hcount⟩ fun other h2 h3 => ?_
      cases other <;> simp [StepReason.code] at h2 h3
    · cases h

theorem checkTimer_error (hkind : (field r 0 4).toNat = 7) (hr : r &&& ~~~assignedBits r = 0)
    (h : checkTimer r = .error reason) : FirstFailure r reason := by
  have hknown : ¬9 ≤ (field r 0 4).toNat := by omega
  unfold checkTimer at h
  split at h
  · rename_i hpreset
    obtain rfl := Except.error.inj h
    refine .of_fields hknown hr ⟨hkind, hpreset⟩ fun other h2 h3 => ?_
    cases other <;> simp [StepReason.code, RecordFails, hkind] at h2 h3 ⊢
  · rename_i hpreset
    split at h
    · cases h
    · rename_i htap
      obtain rfl := Except.error.inj h
      refine .of_fields hknown hr ⟨hkind, by omega⟩ fun other h2 h3 => ?_
      cases other with
      | preset => exact fun ⟨_, h0⟩ => hpreset h0
      | _ => simp [StepReason.code, RecordFails, hkind] at h2 h3 ⊢

theorem checkSignal_error (hkind : (field r 0 4).toNat = 8) (hr : r &&& ~~~assignedBits r = 0)
    (h : checkSignal r = .error reason) : FirstFailure r reason := by
  have hknown : ¬9 ≤ (field r 0 4).toNat := by omega
  unfold checkSignal at h
  split at h
  · rename_i hform
    split at h
    · rename_i hflag
      split at h
      · cases h
      · rename_i haction
        obtain rfl := Except.error.inj h
        refine .of_fields hknown hr (Or.inr ⟨hkind, hform, FlagAction.ofCode_eq_none.mp haction⟩)
          fun other h2 h3 => ?_
        cases other with
        | flag => exact fun ⟨_, _, hover⟩ => absurd hflag (by omega)
        | _ => simp [StepReason.code, RecordFails, hkind] at h2 h3 ⊢
    · rename_i hflag
      obtain rfl := Except.error.inj h
      refine .of_fields hknown hr ⟨hkind, hform, by omega⟩ fun other h2 h3 => ?_
      cases other <;> simp [StepReason.code, RecordFails, hkind] at h2 h3 ⊢
  · cases h

/-- R75 for a BRANCH and a WAIT, whose one check past RESERVED is CONDITION. -/
theorem FirstFailure.condition (hkind : (field r 0 4).toNat = 3 ∨ (field r 0 4).toNat = 6)
    (hr : r &&& ~~~assignedBits r = 0) (hq : conditionField r 8 = none) : FirstFailure r .condition := by
  refine .of_fields (by omega) hr (Or.inr ⟨Or.inr hkind, conditionField_eq_none.mp hq⟩) fun other h2 h3 => ?_
  rcases hkind with hkind | hkind <;> cases other <;> simp [StepReason.code, RecordFails, hkind] at h2 h3 ⊢

/-- R75: a record is refused for the first check that it fails. -/
theorem checkRecord_error (h : checkRecord r = .error reason) : FirstFailure r reason := by
  unfold checkRecord at h
  split at h
  · rename_i hkind
    obtain rfl := Except.error.inj h
    refine ⟨hkind, fun other hlt => ?_⟩
    cases other <;> simp [StepReason.code] at hlt
  · rename_i hknown
    split at h
    · rename_i hr
      obtain rfl := Except.error.inj h
      refine ⟨recordFails_reserved.mpr hr, fun other hlt => ?_⟩
      cases other with
      | kind => exact hknown
      | _ => simp [StepReason.code] at hlt
    · rename_i hreserved
      have hr := not_not.mp hreserved
      split at h
      · cases h
      · rename_i hkind
        exact checkPlay_error hkind hr h
      · rename_i hkind
        exact checkLoop_error hkind hr h
      · rename_i hkind
        split at h
        · cases h
        · rename_i hq
          obtain rfl := Except.error.inj h
          exact .condition (Or.inl hkind) hr hq
      · cases h
      · cases h
      · rename_i hkind
        split at h
        · cases h
        · rename_i hq
          obtain rfl := Except.error.inj h
          exact .condition (Or.inr hkind) hr hq
      · rename_i hkind
        exact checkTimer_error hkind hr h
      · rename_i h0 h1 h2 h3 h4 h5 h6 h7
        refine checkSignal_error ?_ hr h
        simp only [imp_false] at h0 h1 h2 h3 h4 h5 h6 h7
        omega

/-! ### A record that passes fails no check -/

theorem not_over_of_conditionField {lo : Nat} {q : Condition} (h : conditionField r lo = some q) :
    ¬15 < (field r lo 5).toNat := by
  rw [← conditionField_eq_none, h]
  exact Option.some_ne_none q

/-- R75: a record that passes fails none of the checks. -/
theorem not_recordFails_of_ok {x : Step} (h : checkRecord r = .ok x) : ¬RecordFails r reason := by
  obtain ⟨hr, hwf, hread⟩ := checkRecord_ok h
  by_cases hreason : reason = .reserved
  · subst hreason
    rw [recordFails_reserved]
    exact not_not.mpr hr
  cases x with
  | stop =>
    have hkind : (field r 0 4).toNat = 0 := hread
    cases reason <;> simp [RecordFails, hkind] at hreason ⊢
  | play a n aStart aEnd bStart bEnd scale hold =>
    obtain ⟨hkind, hscale, hhold, h1, h2, h3, h4, -, hq, rfl, -⟩ := hread
    cases reason with
    | count => exact fun ⟨_, h0⟩ => hwf h0
    | action => simp [recordFails_action_play hkind, h1, h2, h3, h4]
    | condition =>
      cases hold with
      | none => simp only [RecordFails, hkind, hhold]; simp
      | some q =>
        have hcode := not_over_of_conditionField (hq q rfl)
        simp only [RecordFails, hkind, hhold, hcode]; simp
    | _ => simp [RecordFails, hkind] at hreason ⊢
  | loop last ending =>
    cases ending with
    | count n =>
      obtain ⟨hkind, hform, -, rfl⟩ := hread
      cases reason with
      | count => exact fun ⟨_, h0⟩ => hwf h0
      | _ => simp only [RecordFails, hkind, hform] at hreason ⊢; simp at hreason ⊢
    | condition q =>
      obtain ⟨hkind, hform, hq, -⟩ := hread
      have hcode := not_over_of_conditionField hq
      cases reason <;> simp only [RecordFails, hkind, hform, hcode] at hreason ⊢ <;> simp at hreason ⊢
  | branch q target leave =>
    obtain ⟨hkind, -, hq, -⟩ := hread
    have hcode := not_over_of_conditionField hq
    cases reason <;> simp only [RecordFails, hkind, hcode] at hreason ⊢ <;> simp at hreason ⊢
  | call target =>
    obtain ⟨hkind, -⟩ := hread
    cases reason <;> simp [RecordFails, hkind] at hreason ⊢
  | ret =>
    have hkind : (field r 0 4).toNat = 5 := hread
    cases reason <;> simp [RecordFails, hkind] at hreason ⊢
  | wait q out =>
    obtain ⟨hkind, -, hq⟩ := hread
    have hcode := not_over_of_conditionField hq
    cases reason <;> simp only [RecordFails, hkind, hcode] at hreason ⊢ <;> simp at hreason ⊢
  | timer preset tap =>
    obtain ⟨hkind, htap, rfl⟩ := hread
    have hlt := tap.isLt
    cases reason with
    | preset => exact fun ⟨_, h0⟩ => hwf h0
    | tap => exact fun ⟨_, hover⟩ => by omega
    | _ => simp [RecordFails, hkind] at hreason ⊢
  | signal flag notify code =>
    obtain ⟨hkind, hform, -, hflag, haction, -⟩ := hread
    cases flag with
    | none => cases reason <;> simp only [RecordFails, hkind, hform] at hreason ⊢ <;> simp at hreason ⊢
    | some y =>
      have hlt := y.1.isLt
      have hn := hflag y rfl
      have ha : ¬2 < (field r 16 8).toNat := by
        rw [← FlagAction.ofCode_eq_none, haction y rfl]
        exact Option.some_ne_none _
      cases reason with
      | flag => exact fun ⟨_, _, hover⟩ => by omega
      | _ => simp only [RecordFails, hkind, hform, ha] at hreason ⊢; simp at hreason ⊢

end

end Sys2Proof.Machine

namespace Sys2Proof.Proofs
open Machine

/-- Settles O50: a record is its slots, so a step's record reads back as the step and a checked record is the
record of its step; a refusal gives the first check that fails, and what passes fails none. -/
theorem stepRecordsRoundTrip : Obligations.StepRecordsRoundTrip := by
  refine ⟨fun x => checkRecord_record, fun r x h => ⟨record_of_checkRecord h, wf_of_checkRecord h⟩, rfl,
    fun r => ⟨fun reason hfails hfirst => ?_, fun hnone => ?_⟩⟩
  · cases h : checkRecord r with
    | ok x => exact absurd hfails (not_recordFails_of_ok h)
    | error other => exact congrArg Except.error ((checkRecord_error h).unique ⟨hfails, hfirst⟩)
  · cases h : checkRecord r with
    | ok x => exact ⟨x, rfl⟩
    | error reason =>
      obtain ⟨hfails, -⟩ := checkRecord_error h
      exact absurd hfails (hnone reason)

end Sys2Proof.Proofs
end

section
/-!
The Step Store under every operation of the part: what the two parts of the store are (R58, R60), and that
nothing but SET PARTITION, WRITE STEPS and a reset writes them.
-/
namespace Sys2Proof.Machine

/-- R58, R60: the Step Store: its windows and its records. -/
def State.store (s : State) : Vector Nat 8 × Sparse Step := (s.partition, s.steps)

/-! ### Updates of other parts -/

@[simp] theorem State.store_setEngine (s : State) (c : Chan) (e : Engine) : (s.setEngine c e).store = s.store := rfl
@[simp] theorem State.store_setTimer (s : State) (c : Chan) (t : Timer) : (s.setTimer c t).store = s.store := rfl
@[simp] theorem State.store_setLatches (s : State) (c : Chan) (l : Latches) : (s.setLatches c l).store = s.store := rfl
@[simp] theorem State.store_setRate (s : State) (c : Chan) (r : Rate) : (s.setRate c r).store = s.store := rfl
@[simp] theorem State.store_setOutput (s : State) (c : Chan) (o : Output) : (s.setOutput c o).store = s.store := rfl
@[simp] theorem State.store_hand (s : State) (e : Instr) : (s.hand e).store = s.store := rfl
@[simp] theorem State.store_taken (s : State) (e : Instr) : (s.taken e).store = s.store := rfl
@[simp] theorem State.store_withdraw (s : State) (es : List Instr) : (s.withdraw es).store = s.store := rfl
@[simp] theorem State.store_notify (s : State) (n : Notice) : (s.notify n).store = s.store := rfl
@[simp] theorem State.store_transmit (s : State) : s.transmit.store = s.store := rfl
@[simp] theorem State.store_setHandle (s : State) (h : Nat) (r : HandleRecord) : (s.setHandle h r).store = s.store :=
  rfl
@[simp] theorem State.store_setScanner (s : State) (x : Scanner) : (s.setScanner x).store = s.store := rfl
@[simp] theorem State.store_setReceive (s : State) (r : Receive) : (s.setReceive r).store = s.store := rfl
@[simp] theorem State.store_returnPages (s : State) (i : Image) : (s.returnPages i).store = s.store := rfl
@[simp] theorem State.store_mapImages (s : State) (f : Image → Image) : (s.mapImages f).store = s.store := rfl

/-- Actions in turn, none of which writes the store. -/
theorem State.store_foldl {α : Type} (f : State → α → State) (hf : ∀ u a, (f u a).store = u.store) :
    ∀ (l : List α) (s : State), (l.foldl f s).store = s.store := by
  intro l
  induction l with
  | nil => intro s; rfl
  | cons a l ih => intro s; rw [List.foldl_cons, ih, hf]

theorem State.store_eachChannel (f : Chan → State → State) (hf : ∀ c u, (f c u).store = u.store)
    (s : State) : (s.eachChannel f).store = s.store :=
  State.store_foldl (fun u c => f c u) (fun u c => hf c u) allChannels s

/-! ### Images and their references -/

@[simp] theorem State.store_release (s : State) (n : Nat) : (s.release n).store = s.store := by
  unfold State.release
  simp only
  split <;> rfl

@[simp] theorem State.store_takeReference (s : State) (h : Nat) (i : Image) :
    (s.takeReference h i).store = s.store := rfl

@[simp] theorem State.store_endReference (s : State) (c : Chan) : (s.endReference c).store = s.store := by
  unfold State.endReference
  split <;> simp

@[simp] theorem State.store_discardIncoming (s : State) (h : Nat) : (s.discardIncoming h).store = s.store := by
  unfold State.discardIncoming
  split <;> rfl

@[simp] theorem State.store_cancelImport (s : State) (cause : CancelCause) :
    (s.cancelImport cause).store = s.store := by
  unfold State.cancelImport
  split
  · rfl
  · rw [State.store_discardIncoming]; rfl

@[simp] theorem State.store_dropIncoming (s : State) (h : Nat) (cause : CancelCause) :
    (s.dropIncoming h cause).2.store = s.store := by
  unfold State.dropIncoming
  split <;> simp

@[simp] theorem State.store_releaseIncoming (s : State) (h : Nat) : (s.releaseIncoming h).2.store = s.store := by
  unfold State.releaseIncoming
  split <;> simp

@[simp] theorem State.store_dispose (s : State) (h : Nat) (i : Image) : (s.dispose h i).2.store = s.store := by
  unfold State.dispose
  split <;> rfl

theorem State.store_createImage {s u : State} {h n : Nat} {source : FillSource} {flag : Bool} {i : Image}
    (hc : s.createImage h n source flag = some (i, u)) : u.store = s.store := by
  obtain ⟨first, free, -, -, rfl⟩ := State.createImage_some hc
  rfl

theorem State.store_commitAttempt {s u : State} {h : Nat} {i : Image} {d : Option (Nat × Disposition)}
    (hc : s.commitAttempt h i = .ok (d, u)) : u.store = s.store := by
  unfold State.commitAttempt at hc
  split at hc
  · obtain ⟨-, rfl⟩ := Prod.mk.inj (Except.ok.inj hc)
    rfl
  · split at hc
    · cases hc
    · obtain ⟨-, rfl⟩ := Prod.mk.inj (Except.ok.inj hc)
      simp

@[simp] theorem State.store_writeImagePage (s : State) (h : Nat) (i : Image) (k : Nat) (data : List Byte) :
    (s.writeImagePage h i k data).store = s.store := by
  unfold State.writeImagePage
  simp only
  split <;> rfl

@[simp] theorem State.store_completeImport (s : State) (r : ImportRecord) (i : Image) :
    (s.completeImport r i).store = s.store := by
  unfold State.completeImport
  simp only
  split
  · split
    · rfl
    · rename_i hc
      exact (State.store_commitAttempt hc :)
  · rfl

@[simp] theorem State.store_completePage (s : State) (r : ImportRecord) (data : List Byte) :
    (s.completePage r data).store = s.store := by
  unfold State.completePage
  split
  · rfl
  · simp only
    split
    · exact s.store_writeImagePage _ _ _ _
    · simp

@[simp] theorem State.store_compareRead (s : State) (r : PageRead) : (s.compareRead r).store = s.store := by
  have hm : ∀ i, (s.markDamage i r.page).store = s.store := fun i => by
    unfold State.markDamage
    simp only
    split
    · rfl
    · split <;> rfl
  unfold State.compareRead
  split
  · rfl
  · split
    · exact hm _
    · rfl

@[simp] theorem State.store_decayPage (s : State) (page : Nat) (data : List Byte) :
    (s.decayPage page data).store = s.store := by
  unfold State.decayPage
  split <;> rfl

/-! ### Conditions, flags and timers -/

@[simp] theorem State.store_consume (s : State) (c : Chan) (o : Operand) : (s.consume c o).store = s.store := by
  cases o <;> rfl

@[simp] theorem State.store_test (s : State) (c : Chan) (q : Condition) : (s.test c q).2.store = s.store := by
  unfold State.test
  split
  · rfl
  · split <;> simp

@[simp] theorem State.store_handChanges (s : State) (f : Chan → Operand → Bool) :
    (s.handChanges f).store = s.store := by
  rw [State.handChanges_eq]
  rfl

@[simp] theorem State.store_writeFlags (s : State) (flags : BitVec 8) : (s.writeFlags flags).store = s.store := by
  unfold State.writeFlags
  exact State.store_handChanges _ _

@[simp] theorem State.store_triggerArrival (s : State) (n : Fin 4) : (s.triggerArrival n).store = s.store := by
  unfold State.triggerArrival
  simp only
  rw [State.store_handChanges]
  refine State.store_eachChannel _ (fun c u => ?_) s
  split <;> simp

@[simp] theorem State.store_softwareTrigger (s : State) (m : Byte) : (s.softwareTrigger m).store = s.store := by
  unfold State.softwareTrigger
  simp only
  rw [State.store_handChanges]
  refine State.store_eachChannel _ (fun c u => ?_) s
  split <;> simp

@[simp] theorem State.store_changeTriggerLine (s : State) (n : Fin 4) (high : Bool) :
    (s.changeTriggerLine n high).store = s.store := by
  unfold State.changeTriggerLine
  simp only
  split
  · exact State.store_triggerArrival _ n
  · rfl

@[simp] theorem State.store_expireTimer (s : State) (c : Chan) : (s.expireTimer c).store = s.store := by
  unfold State.expireTimer
  simp only
  split
  · split
    · rw [State.store_hand]; split <;> rfl
    · split <;> rfl
  · split <;> rfl

@[simp] theorem State.store_tapTimer (s : State) (c : Chan) (tap : Fin 8) : (s.tapTimer c tap).store = s.store := by
  unfold State.tapTimer
  simp only
  split
  · split <;> simp
  · rfl

/-! ### The walk and the time base -/

@[simp] theorem State.store_visitPages : ∀ (n : Nat) (s : State), (s.visitPages n).store = s.store := by
  intro n
  induction n with
  | zero => intro s; rfl
  | succ n ih =>
    intro s
    unfold State.visitPages
    split
    · rfl
    · rw [ih, State.store_setScanner]

@[simp] theorem State.store_endVisit (s : State) : s.endVisit.store = s.store := by
  unfold State.endVisit
  simp only
  split <;> simp

@[simp] theorem State.store_resumeWalk (s : State) : s.resumeWalk.store = s.store := by
  unfold State.resumeWalk
  simp only
  split <;> simp

@[simp] theorem State.store_walkTick (s : State) : s.walkTick.store = s.store := by
  unfold State.walkTick
  split
  · split
    · rfl
    · split <;> simp [State.beginBlock]
  · rfl

@[simp] theorem State.store_tap (s : State) (k : Fin 7) : (s.tap k).store = s.store := by
  have htimers := State.store_eachChannel _ (fun c u => u.store_tapTimer c (tapOf k)) s
  unfold State.tap
  simp only
  split
  · rw [State.store_walkTick, htimers]
  · exact htimers

@[simp] theorem State.store_tapEvent (s : State) (k : Fin 7) : (s.tapEvent k).store = s.store := by
  unfold State.tapEvent
  split
  · split
    · simp
    · rw [State.store_tap]; rfl
  · rfl

@[simp] theorem State.store_tick (s : State) : s.tick.store = s.store := by
  have htimeout : s.tickTimeout.store = s.store := by
    unfold State.tickTimeout
    split
    · simp only
      split <;> rfl
    · rfl
    · rfl
  have hphase : ∀ (c : Chan) (u : State), (u.tickPhase c).store = u.store := fun c u => by
    unfold State.tickPhase
    simp only
    split <;> simp
  have hchain : ∀ u : State, u.tickChain.store = u.store := fun u => rfl
  unfold State.tick
  split
  · rfl
  · simp only
    split
    · exact htimeout
    · rw [hchain, State.store_eachChannel _ hphase, htimeout]

/-! ### The reference clock -/

@[simp] theorem State.store_lockAcquired (s : State) : s.lockAcquired.store = s.store := by
  unfold State.lockAcquired
  split <;> rfl

@[simp] theorem State.store_lockTimeoutExpired (s : State) : s.lockTimeoutExpired.store = s.store := by
  unfold State.lockTimeoutExpired
  split <;> rfl

@[simp] theorem State.store_transferDone (s : State) : s.transferDone.store = s.store := by
  unfold State.transferDone
  split <;> rfl

@[simp] theorem State.store_referenceLost (s : State) : s.referenceLost.store = s.store := by
  unfold State.referenceLost
  split <;> rfl

@[simp] theorem State.store_leaveReset (s : State) : s.leaveReset.store = s.store := by
  unfold State.leaveReset
  split <;> rfl

/-! ### The link -/

@[simp] theorem State.store_arrive (s : State) (f : Frame) : (s.arrive f).store = s.store := by
  unfold State.arrive
  split <;> rfl

@[simp] theorem State.store_failFrame (s : State) (st : Status) (tag : Byte) :
    (s.failFrame st tag).store = s.store := by
  unfold State.failFrame
  split <;> rfl

@[simp] theorem State.store_takeHeader (s : State) (taken : List Byte) : (s.takeHeader taken).store = s.store := by
  unfold State.takeHeader
  split
  · simp only
    split
    · simp
    · split <;> rfl
  · rfl

@[simp] theorem State.store_checkFrame (s : State) (f : Frame) (check : Half) :
    (s.checkFrame f check).store = s.store := by
  unfold State.checkFrame
  simp only
  split <;> simp

@[simp] theorem State.store_receiveByte (s : State) (b : Byte) : (s.receiveByte b).store = s.store := by
  unfold State.receiveByte
  split
  · split <;> rfl
  · simp
  · split <;> rfl
  · rfl
  · simp
  · rfl

@[simp] theorem State.store_discardPartial (s : State) (r : Receive) : (s.discardPartial r).store = s.store := by
  unfold State.discardPartial
  rw [State.store_setReceive]
  split <;> simp

@[simp] theorem State.store_framingError (s : State) : s.framingError.store = s.store := by
  unfold State.framingError
  split <;> simp

@[simp] theorem State.store_linkGap (s : State) : s.linkGap.store = s.store := by
  unfold State.linkGap
  split <;> simp

end Sys2Proof.Machine
end

section
/-!
The channels never write the Step Store: the ends of a run, the step kinds and the chain of steps, passes
and sample periods, and the events at one channel.
-/
namespace Sys2Proof.Machine

variable (s : State) (c : Chan)

/-! ### The ends of a run -/

@[simp] theorem State.store_idleChannel : (s.idleChannel c).store = s.store := by
  rw [State.idleChannel_eq]
  rfl

@[simp] theorem State.store_endRun (cause : RunEndCause) : (s.endRun c cause).store = s.store := by
  simp [State.endRun]

@[simp] theorem State.store_faultChannel (cause : FaultCause) (k : Option Nat) :
    (s.faultChannel c cause k).store = s.store := by
  simp [State.faultChannel, State.haltTimer, State.restOutput]

@[simp] theorem State.store_resetChannel : (s.resetChannel c).store = s.store := by
  simp [State.resetChannel]

/-! ### The step kinds -/

@[simp] theorem State.store_setLoops (l : List LoopRecord) : (s.setLoops c l).store = s.store := rfl

@[simp] theorem State.store_goTo (k : Nat) : (s.goTo c k).store = s.store := rfl

@[simp] theorem State.store_markOutput (a b : MarkerAction) : (s.markOutput c a b).store = s.store := rfl

theorem State.store_loopTest (c : Chan) (i : Nat) : ∀ (turns : Nat) (s : State),
    (s.loopTest c i turns).2.store = s.store := by
  intro turns
  induction turns with
  | zero => intro s; rfl
  | succ n ih =>
    intro s
    unfold State.loopTest
    split
    · rfl
    · split
      · split
        · split
          · rw [ih, State.store_setLoops]
          · rfl
        · simp only
          split
          · rw [ih, State.store_setLoops, State.store_test]
          · exact s.store_test c _
      · rfl

@[simp] theorem State.store_advance : (s.advance c).1.store = s.store := by
  unfold State.advance
  simp only
  split <;> simp [State.store_loopTest]

@[simp] theorem State.store_playStep (h n : Nat) (a b d e : MarkerAction) (scale : Option Half)
    (hold : Option Condition) : (s.playStep c h n a b d e scale hold).1.store = s.store := by
  unfold State.playStep
  split <;> simp

@[simp] theorem State.store_loopStep (last : Nat) (ending : LoopEnd) :
    (s.loopStep c last ending).1.store = s.store := by
  unfold State.loopStep
  simp only
  split
  · simp
  · split
    · simp
    · split <;> simp

@[simp] theorem State.store_branchStep (q : Condition) (target : Nat) (leave : Bool) :
    (s.branchStep c q target leave).1.store = s.store := by
  unfold State.branchStep
  simp only
  split
  · simp
  · split
    · rw [State.store_goTo]
      split <;> simp
    · simp

@[simp] theorem State.store_callStep (target : Nat) : (s.callStep c target).1.store = s.store := by
  unfold State.callStep
  simp only
  split
  · simp
  · split <;> simp

@[simp] theorem State.store_returnStep : (s.returnStep c).1.store = s.store := by
  unfold State.returnStep
  simp only
  split
  · simp
  · split <;> simp

@[simp] theorem State.store_waitStep (q : Condition) (out : WaitOutput) :
    (s.waitStep c q out).1.store = s.store := by
  unfold State.waitStep
  simp only
  split <;> simp

@[simp] theorem State.store_signalStep (flag : Option (Fin 8 × FlagAction)) (n : Bool) (u : Byte) :
    (s.signalStep c flag n u).1.store = s.store := by
  unfold State.signalStep
  simp only
  rw [State.store_advance]
  split <;> split <;> simp

@[simp] theorem State.store_loadTimer (k : Nat) (tap : Fin 8) : (s.loadTimer c k tap).store = s.store := rfl

@[simp] theorem State.store_executeStep : (s.executeStep c).1.store = s.store := by
  unfold State.executeStep
  split <;> simp

@[simp] theorem State.store_takeSteps : ∀ (n : Nat) (s : State), (s.takeSteps c n).store = s.store := by
  intro n
  induction n with
  | zero => intro s; rfl
  | succ n ih =>
    intro s
    unfold State.takeSteps
    simp only
    split
    · rw [ih, State.countStep, State.store_setEngine, State.store_executeStep]
    · exact s.store_executeStep c

/-! ### Events at which a channel takes steps -/

@[simp] theorem State.store_beginEvent : (s.beginEvent c).store = s.store := rfl

@[simp] theorem State.store_stepEvent : (s.stepEvent c).store = s.store := by
  simp [State.stepEvent]

@[simp] theorem State.store_advanceEvent : (s.advanceEvent c).store = s.store := by
  unfold State.advanceEvent
  simp only
  split <;> simp

@[simp] theorem State.store_startChannel : (s.startChannel c).store = s.store := by
  unfold State.startChannel
  simp only
  split <;> simp

@[simp] theorem State.store_startTest : (s.startTest c).store = s.store := by
  unfold State.startTest
  split
  · simp only
    split <;> simp
  · rfl

@[simp] theorem State.store_releaseTest : (s.releaseTest c).store = s.store := by
  unfold State.releaseTest
  split
  · simp only
    split <;> simp
  · rfl

@[simp] theorem State.store_goOn : (s.goOn c).store = s.store := by
  unfold State.goOn
  split <;> simp

@[simp] theorem State.store_pauseChanged : (s.pauseChanged c).store = s.store := by
  unfold State.pauseChanged
  simp only
  split <;> simp

@[simp] theorem State.store_followPauseLine : (s.followPauseLine c).store = s.store := by
  simp [State.followPauseLine]

/-! ### Passes and sample periods -/

@[simp] theorem State.store_completePlay (p : PlayRecord) : (s.completePlay c p).store = s.store := by
  unfold State.completePlay
  simp only
  split <;> simp

@[simp] theorem State.store_setActivity (a : Activity) : (s.setActivity c a).store = s.store := rfl

@[simp] theorem State.store_holdTest (p : PlayRecord) : (s.holdTest c p).store = s.store := by
  unfold State.holdTest
  split
  · simp
  · simp only
    split <;> simp

@[simp] theorem State.store_passComplete (p : PlayRecord) (counted : Bool) :
    (s.passComplete c p counted).store = s.store := by
  unfold State.passComplete
  simp only
  split <;> simp

@[simp] theorem State.store_carryRest : (s.carryRest c).store = s.store := rfl

@[simp] theorem State.store_carryCode (code : Half) : (s.carryCode c code).store = s.store := rfl

@[simp] theorem State.store_playPeriod (p : PlayRecord) (counted : Bool) :
    (s.playPeriod c p counted).store = s.store := by
  unfold State.playPeriod
  simp only
  split
  · rfl
  · rw [State.store_passComplete]; rfl

@[simp] theorem State.store_waitPeriod (w : WaitRecord) : (s.waitPeriod c w).store = s.store := by
  unfold State.waitPeriod
  split <;> rfl

@[simp] theorem State.store_frozenPeriod : (s.frozenPeriod c).store = s.store := by
  unfold State.frozenPeriod
  split
  · rfl
  · simp
  all_goals split <;> rfl

@[simp] theorem State.store_samplePeriod : (s.samplePeriod c).store = s.store := by
  unfold State.samplePeriod
  simp only
  split
  case h_5 => split <;> simp
  all_goals simp

@[simp] theorem State.store_periodEvent : (s.periodEvent c).store = s.store := by
  simp [State.periodEvent]

@[simp] theorem State.store_passPeriods : ∀ (n : Nat) (s : State), (s.passPeriods c n).store = s.store := by
  intro n
  induction n with
  | zero => intro s; rfl
  | succ n ih =>
    intro s
    unfold State.passPeriods
    split
    · simp only
      rw [ih]
      split <;> simp
    · rfl

/-! ### The hold and operand changes -/

@[simp] theorem State.store_dropHold : (s.dropHold c).store = s.store := by
  unfold State.dropHold
  simp only
  split
  · split <;> simp
  · simp

@[simp] theorem State.store_raiseEvent (target : HoldTarget) : (s.raiseEvent target).store = s.store := by
  unfold State.raiseEvent
  simp only
  split
  · unfold State.raiseHold
    split <;> rfl
  all_goals rfl

@[simp] theorem State.store_dropEvent (target : HoldTarget) : (s.dropEvent target).store = s.store := by
  unfold State.dropEvent
  split <;> simp

@[simp] theorem State.store_changeEvent : (s.changeEvent c).store = s.store := by
  have hpassed : (if (s.engine c).retests then s.passPeriods c (s.periodsBefore c (.operandChange c))
      else s).store = s.store := by
    split <;> simp
  unfold State.changeEvent
  simp only
  split <;> simp [hpassed]

@[simp] theorem State.store_signalEvent (e : Instr) : (s.signalEvent e).store = s.store := by
  unfold State.signalEvent
  split <;> simp

@[simp] theorem State.store_catchUp (e : Instr) : (s.catchUp c e).store = s.store :=
  State.store_foldl (fun u e => (u.signalEvent e).transmit) (fun u e => by simp) _ s

@[simp] theorem State.store_catchUpAt (target : HoldTarget) (e : Instr) :
    (s.catchUpAt target e).store = s.store := by
  unfold State.catchUpAt
  split <;> simp

/-! ### Requests on the engines -/

@[simp] theorem State.store_runChannels (mask : Byte) (start : Nat) (q : Condition) :
    (s.runChannels mask start q).store = s.store := by
  unfold State.runChannels
  simp only
  rw [State.store_foldl _ (fun u c => u.store_startTest c),
    State.store_foldl (fun u c => u.armChannel start q c) (fun u c => rfl)]
  rfl

@[simp] theorem State.store_stopNow : (s.stopNow c).store = s.store := by
  unfold State.stopNow
  split <;> simp

@[simp] theorem State.store_stopAfterPlay : (s.stopAfterPlay c).store = s.store := by
  unfold State.stopAfterPlay
  split <;> simp

@[simp] theorem State.store_pauseChannel : (s.pauseChannel c).store = s.store := by
  unfold State.pauseChannel
  split <;> simp

@[simp] theorem State.store_resumeChannel : (s.resumeChannel c).store = s.store := by
  simp [State.resumeChannel]

end Sys2Proof.Machine
end

section
/-!
Requests, events and steps at the Step Store (R58, R60, R61, R74): every one but SET PARTITION, WRITE STEPS
and the resets leaves it as it was, and those keep its invariant.
-/
namespace Sys2Proof.Machine

/-! ### Requests that do not write the store -/

section
variable (s : State)

theorem State.store_takeWake : (takeWake s).1.store = s.store := by
  unfold takeWake
  split
  · exact (State.store_resumeWalk _).trans rfl
  · rfl

theorem State.store_takeEnterStandby : (takeEnterStandby s).1.store = s.store := by
  unfold takeEnterStandby
  split <;> rfl

theorem State.store_takeSetNotices (m : Byte) : (takeSetNotices m s).1.store = s.store := by
  unfold takeSetNotices
  split <;> rfl

theorem State.store_takeDefineImage (h : Half) (n : Quad) (b : Byte) :
    (takeDefineImage h n b s).1.store = s.store := by
  unfold takeDefineImage
  split
  · rfl
  · split
    · rfl
    · split
      · rfl
      · split
        · rfl
        · split
          · rfl
          · rename_i hc
            exact State.store_createImage hc

theorem State.store_takeWritePage (h k : Half) (xs : List Half) :
    (takeWritePage h k xs s).1.store = s.store := by
  unfold takeWritePage
  split
  · rfl
  · split
    · rfl
    · split
      · rfl
      · split
        · rfl
        · exact s.store_writeImagePage _ _ _ _

theorem State.store_takeFinishImage (h : Half) : (takeFinishImage h s).1.store = s.store := by
  unfold takeFinishImage
  split
  · rfl
  · split
    · rfl
    · split
      · split
        · rfl
        · simp only
          split
          · split
            · rfl
            · rename_i hc
              exact (State.store_commitAttempt hc).trans rfl
          · rfl
      · rfl

theorem State.store_takeCommit (h : Half) : (takeCommit h s).1.store = s.store := by
  unfold takeCommit
  split
  · rfl
  · split
    · rfl
    · split
      · rfl
      all_goals
        split
        · rfl
        · rename_i hc
          exact State.store_commitAttempt hc

theorem State.store_takeDropIncoming (h : Half) : (takeDropIncoming h s).1.store = s.store := by
  unfold takeDropIncoming
  split
  · rfl
  · split
    · rfl
    · exact s.store_dropIncoming _ _

theorem State.store_takeReleaseHandle (h : Half) : (takeReleaseHandle h s).1.store = s.store := by
  unfold takeReleaseHandle
  split
  · rfl
  · split
    · rfl
    · exact s.store_releaseIncoming _
    · split
      · rfl
      · simp [answer]

theorem State.store_takeReadHandle (h : Half) : (takeReadHandle h s).1.store = s.store := by
  unfold takeReadHandle
  split <;> rfl

theorem State.store_takeReadMap (k : Half) : (takeReadMap k s).1.store = s.store := by
  unfold takeReadMap
  split <;> rfl

theorem State.store_takeSetGuard (n : Byte) (f l : Half) (m : Byte) :
    (takeSetGuard n f l m s).1.store = s.store := by
  unfold takeSetGuard
  split
  · split
    · split
      · rfl
      · split <;> rfl
    · rfl
  · rfl

theorem State.store_takeClearGuard (n : Byte) : (takeClearGuard n s).1.store = s.store := by
  unfold takeClearGuard
  split
  · split <;> rfl
  · rfl

theorem State.store_takeLockGuards (n : Byte) : (takeLockGuards n s).1.store = s.store := by
  unfold takeLockGuards
  split
  · rfl
  · split <;> rfl

theorem State.store_takeStartImport (h : Half) (a n : Quad) (b : Byte) :
    (takeStartImport h a n b s).1.store = s.store := by
  unfold takeStartImport
  simp only
  split
  · rfl
  · split
    · rfl
    · split
      · rfl
      · split
        · rfl
        · split
          · rfl
          · split
            · rfl
            · split
              · rfl
              · rename_i hc
                exact (State.store_createImage hc :)

theorem State.store_takeCancelImport : (takeCancelImport s).1.store = s.store := by
  unfold takeCancelImport
  split
  · rfl
  · exact s.store_cancelImport _

theorem State.store_takeCloseLibrary : (takeCloseLibrary s).1.store = s.store := by
  unfold takeCloseLibrary
  split
  · rfl
  · exact (State.store_cancelImport _ _).trans rfl

theorem State.store_takeSetWalk (e i b : Byte) (f l : Half) : (takeSetWalk e i b f l s).1.store = s.store := by
  unfold takeSetWalk
  simp only
  split
  · rfl
  · rfl
  · split
    · rfl
    · split <;> rfl

theorem State.store_takeReadSteps (x : Byte) (f : Half) (n : Byte) : (takeReadSteps x f n s).1.store = s.store := by
  unfold takeReadSteps
  split
  · rfl
  · split
    · rfl
    · split <;> rfl

theorem State.store_takeRun (m : Byte) (start : Half) (k n : Byte) :
    (takeRun m start k n s).1.store = s.store := by
  unfold takeRun
  split
  · split
    · rfl
    · simp only
      split
      · rfl
      · split
        · rfl
        · split
          · rfl
          · exact s.store_runChannels _ _ _
  · rfl

theorem State.store_takeStop (m o : Byte) : (takeStop m o s).1.store = s.store := by
  unfold takeStop
  split
  · rfl
  · split
    · rfl
    · refine State.store_foldl _ (fun u c => ?_) _ s
      split <;> simp

theorem State.store_takePause (m : Byte) : (takePause m s).1.store = s.store := by
  unfold takePause
  split
  · rfl
  · exact State.store_foldl (fun u c => u.pauseChannel c) (fun u c => by simp) _ s

theorem State.store_takeResume (m : Byte) : (takeResume m s).1.store = s.store := by
  unfold takeResume
  split
  · rfl
  · exact State.store_foldl (fun u c => u.resumeChannel c) (fun u c => by simp) _ s

theorem State.store_takeReadChannel (x : Byte) : (takeReadChannel x s).1.store = s.store := by
  unfold takeReadChannel
  split <;> rfl

theorem State.store_takeClearFault (x : Byte) : (takeClearFault x s).1.store = s.store := by
  unfold takeClearFault
  split
  · rfl
  · split
    · exact s.store_idleChannel _
    · rfl

theorem State.store_takeSetPolicy (x p r n : Byte) : (takeSetPolicy x p r n s).1.store = s.store := by
  unfold takeSetPolicy
  split
  · simp [answer]
  · rfl

theorem State.store_takeSetFlags (a b c : Byte) : (takeSetFlags a b c s).1.store = s.store := by
  unfold takeSetFlags
  split
  · rfl
  · simp only [answer, State.store_writeFlags]

theorem State.store_takeFireTrigger (m : Byte) : (takeFireTrigger m s).1.store = s.store := by
  unfold takeFireTrigger
  split
  · rfl
  · simp only [answer, State.store_softwareTrigger]

theorem State.store_takeSetRoute (x r p : Byte) (es : List Byte) : (takeSetRoute x r p es s).1.store = s.store := by
  unfold takeSetRoute
  split
  · split
    · rfl
    · simp only
      split <;> rfl
  · rfl

theorem State.store_takeSetReference (x : Byte) : (takeSetReference x s).1.store = s.store := by
  unfold takeSetReference
  split
  · rfl
  · split
    · rfl
    · change State.store (if _ then _ else _) = _
      split
      · rfl
      · split <;> rfl

theorem State.store_takeSetRate (x : Byte) (d : Quad) : (takeSetRate x d s).1.store = s.store := by
  unfold takeSetRate
  split
  · rfl
  · split
    · rfl
    · split <;> rfl

theorem State.store_takeSetOutput (x : Byte) (g o lo hi r : Half) (e a b : Byte) :
    (takeSetOutput x g o lo hi r e a b s).1.store = s.store := by
  unfold takeSetOutput
  split
  · split
    · rfl
    · split <;> rfl
  · rfl

theorem State.store_takeReadOutput (x : Byte) : (takeReadOutput x s).1.store = s.store := by
  unfold takeReadOutput
  split <;> rfl

end

end Sys2Proof.Machine
end

section
/-!
The invariant of the Step Store (R58, R60, R61, R65, R74, R75) at the two requests that write it, at the
resets, and so at every step.
-/
namespace Sys2Proof.Machine

/-- The invariant is about the store alone. -/
theorem State.StoreWf.of_store {s t : State} (hs : s.StoreWf) (h : t.store = s.store) : t.StoreWf := by
  obtain ⟨hpartition, hsteps⟩ := Prod.mk.inj h
  refine ⟨fun c => ?_, ?_, ?_, ?_, ?_⟩
  · rw [State.windowSize, hpartition]; exact hs.units c
  · rw [hpartition]; exact hs.fits
  all_goals rw [hsteps]
  · exact hs.steps
  · exact hs.positions
  · exact hs.valid

/-! ### Windows -/

/-- R60: a window ends where those before it and its own size put it, within the store. -/
theorem State.StoreWf.window_fits {s : State} (hs : s.StoreWf) (c : Chan) :
    s.windowStart c + s.windowSize c ≤ Config.stepRecords := by
  have hlen : c.val < s.partition.toList.length := by simp
  have hsize : s.windowSize c = s.partition.toList[c.val] := by simp [State.windowSize]
  calc s.windowStart c + s.windowSize c
      = (s.partition.toList.take (c.val + 1)).sum := by
        rw [hsize, State.windowStart, List.sum_take_succ _ _ hlen]
    _ ≤ (s.partition.toList.take (c.val + 1)).sum + (s.partition.toList.drop (c.val + 1)).sum :=
        Nat.le_add_right _ _
    _ = s.partition.toList.sum := by rw [← List.sum_append, List.take_append_drop]
    _ ≤ Config.stepRecords := hs.fits

/-- The first numbers of a list, absent ones counted as 0, add up to no more than the list. -/
theorem sum_range_getD_le (n : Nat) : ∀ l : List Nat,
    ((List.range n).map fun k => l.getD k 0).sum ≤ l.sum := by
  induction n with
  | zero => intro l; exact Nat.zero_le _
  | succ n ih =>
    intro l
    rw [List.range_succ_eq_map, List.map_cons, List.map_map, List.sum_cons]
    cases l with
    | nil => simp [Function.comp_def]
    | cons a l => simpa [Function.comp_def] using ih l

theorem State.windowSize_sizesOf (s : State) (counts : List Byte) (c : Chan) :
    ({ s with partition := sizesOf counts } : State).windowSize c = 64 * (counts.getD c.val 0).toNat := by
  simp [State.windowSize, sizesOf]

/-- R61: windows of at most 64 units of 64 steps lie within the store. -/
theorem sizesOf_fits {counts : List Byte} (h : (counts.map BitVec.toNat).sum ≤ 64) :
    (sizesOf counts).toList.sum ≤ Config.stepRecords := by
  have hunits : (sizesOf counts).toList.sum =
      64 * ((List.range 8).map fun k => (counts.map BitVec.toNat).getD k 0).sum := by
    have hget : ∀ k, (counts.map BitVec.toNat).getD k 0 = (counts.getD k 0).toNat := fun k => by
      simp only [List.getD_eq_getElem?_getD, List.getElem?_map]
      cases counts[k]? <;> rfl
    simp only [hget, sizesOf, Vector.toList_ofFn, List.sum_ofFn, Fin.sum_univ_eight]
    simp [List.range_succ]
    omega
  have := sum_range_getD_le 8 (counts.map BitVec.toNat)
  rw [hunits]
  simp only [Config.stepRecords]
  omega

theorem State.StoreWf.takeSetPartition {s : State} (hs : s.StoreWf) (counts : List Byte) :
    (takeSetPartition counts s).1.StoreWf := by
  unfold Machine.takeSetPartition
  split
  · exact hs
  · rename_i hrange
    split
    · exact hs
    · refine ⟨fun c => ?_, sizesOf_fits (by omega), hs.steps, hs.positions, hs.valid⟩
      have := s.windowSize_sizesOf counts c
      simp only [answer]
      omega

/-! ### Records -/

/-- What holds of every entry of a store and of a datum written holds of every entry after the write. -/
theorem Sparse.forall_set {α : Type} [DecidableEq α] {d v : α} {m : Sparse α} {k : Nat} {P : Nat × α → Prop}
    (hm : ∀ e ∈ m, P e) (hv : P (k, v)) : ∀ e ∈ Sparse.set d m k v, P e := by
  intro e he
  unfold Sparse.set at he
  split at he
  · exact hm e (Sparse.mem_erase m k he)
  · rcases Sparse.mem_put m k v he with rfl | he
    · exact hv
    · exact hm e he

theorem forall_writeStepsAt {P : Nat × Step → Prop} : ∀ (xs : List Step) (m : Sparse Step) (b : Nat),
    (∀ e ∈ m, P e) → (∀ k, ∀ x ∈ xs, b ≤ k → k < b + xs.length → P (k, x)) →
    ∀ e ∈ writeStepsAt m b xs, P e := by
  intro xs
  induction xs with
  | nil => intro m b hm _; exact hm
  | cons x xs ih =>
    intro m b hm hx
    refine ih _ _ (Sparse.forall_set hm (hx b x List.mem_cons_self (Nat.le_refl b) (by simp))) ?_
    intro k y hy hlow hhigh
    exact hx k y (List.mem_cons_of_mem x hy) (by omega) (by simp only [List.length_cons]; omega)

/-- R75: records that pass are as many steps, and each is checked. -/
theorem checkRecords_spec : ∀ (rs : List (BitVec 64)) (k : Nat) (xs : List Step),
    checkRecords k rs = .ok xs → xs.length = rs.length ∧ ∀ x ∈ xs, x.Wf := by
  intro rs
  induction rs with
  | nil =>
    intro k xs h
    obtain rfl := Except.ok.inj h
    exact ⟨rfl, fun x hx => by cases hx⟩
  | cons r rs ih =>
    intro k xs h
    unfold checkRecords at h
    split at h
    · cases h
    · rename_i x hx
      split at h
      · cases h
      · rename_i ys hys
        obtain rfl := Except.ok.inj h
        obtain ⟨hlen, hwf⟩ := ih _ _ hys
        exact ⟨by rw [List.length_cons, List.length_cons, hlen],
          List.forall_mem_cons.mpr ⟨wf_of_checkRecord hx, hwf⟩⟩

theorem State.StoreWf.takeWriteSteps {s : State} (hs : s.StoreWf) (channel : Byte) (first : Half)
    (count : Byte) {records : List (BitVec 64)} (hlen : records.length = count.toNat) :
    (takeWriteSteps channel first count records s).1.StoreWf := by
  unfold Machine.takeWriteSteps
  split
  · exact hs
  · rename_i c _
    split
    · exact hs
    · split
      · exact hs
      · split
        · exact hs
        · rename_i hwindow
          split
          · exact hs
          · rename_i xs hxs
            obtain ⟨hxlen, hxwf⟩ := checkRecords_spec _ _ _ hxs
            have hfits := hs.window_fits c
            refine ⟨hs.units, hs.fits, canonical_writeStepsAt _ _ _ hs.steps,
              forall_writeStepsAt xs _ _ hs.positions fun k x _ _ hk => ?_,
              forall_writeStepsAt xs _ _ hs.valid fun k x hx _ _ => hxwf x hx⟩
            simp only
            omega

/-! ### Requests -/

/-- What a block does with a request whose lists have their lengths keeps the invariant. -/
theorem State.StoreWf.take {s : State} (hs : s.StoreWf) {i : Instr} {take : State → Answer}
    (h : takeOf i = some take) (hw : i.wellFormed = true) : (take s).1.StoreWf := by
  cases i <;> simp only [takeOf, Option.some.injEq, reduceCtorEq] at h <;> subst h
  case setPartition => exact hs.takeSetPartition _
  case writeSteps => exact hs.takeWriteSteps _ _ _ (by simpa [Instr.wellFormed] using hw)
  all_goals refine hs.of_store ?_
  case enterStandby => exact s.store_takeEnterStandby
  case wake => exact s.store_takeWake
  case setNotices => exact s.store_takeSetNotices _
  case defineImage => exact s.store_takeDefineImage _ _ _
  case writePage => exact s.store_takeWritePage _ _ _
  case finishImage => exact s.store_takeFinishImage _
  case commit => exact s.store_takeCommit _
  case dropIncoming => exact s.store_takeDropIncoming _
  case releaseHandle => exact s.store_takeReleaseHandle _
  case readHandle => exact s.store_takeReadHandle _
  case readMap => exact s.store_takeReadMap _
  case setGuard => exact s.store_takeSetGuard _ _ _ _
  case clearGuard => exact s.store_takeClearGuard _
  case lockGuards => exact s.store_takeLockGuards _
  case startImport => exact s.store_takeStartImport _ _ _ _
  case cancelImport => exact s.store_takeCancelImport
  case closeLibrary => exact s.store_takeCloseLibrary
  case setWalk => exact s.store_takeSetWalk _ _ _ _ _
  case readSteps => exact s.store_takeReadSteps _ _ _
  case run => exact s.store_takeRun _ _ _ _
  case stop => exact s.store_takeStop _ _
  case pause => exact s.store_takePause _
  case resume => exact s.store_takeResume _
  case readChannel => exact s.store_takeReadChannel _
  case clearFault => exact s.store_takeClearFault _
  case setPolicy => exact s.store_takeSetPolicy _ _ _ _
  case setFlags => exact s.store_takeSetFlags _ _ _
  case fireTrigger => exact s.store_takeFireTrigger _
  case setRoute => exact s.store_takeSetRoute _ _ _ _
  case setReference => exact s.store_takeSetReference _
  case setRate => exact s.store_takeSetRate _ _
  case setOutput => exact s.store_takeSetOutput _ _ _ _ _ _ _ _ _
  case readOutput => exact s.store_takeReadOutput _
  all_goals rfl

/-- R202, R207: as many records as bytes of them were sent. -/
theorem recordsOf_length : ∀ (n : Nat) (p : List Byte), p.length = 8 * n → (recordsOf p).length = n := by
  intro n
  induction n with
  | zero =>
    intro p h
    obtain rfl := List.eq_nil_of_length_eq_zero h
    rfl
  | succ n ih =>
    intro p h
    match p, h with
    | _ :: _ :: _ :: _ :: _ :: _ :: _ :: _ :: rest, h =>
      rw [recordsOf, List.length_cons, ih rest (by simp only [List.length_cons] at h; omega)]

theorem halvesOf_length : ∀ (n : Nat) (p : List Byte), p.length = 2 * n → (halvesOf p).length = n := by
  intro n
  induction n with
  | zero =>
    intro p h
    obtain rfl := List.eq_nil_of_length_eq_zero h
    rfl
  | succ n ih =>
    intro p h
    match p, h with
    | _ :: _ :: rest, h =>
      rw [halvesOf, List.length_cons, ih rest (by simp only [List.length_cons] at h; omega)]

/-- R202: a frame that CL reads as a request has lists of their lengths. -/
theorem wellFormed_of_decodeRequest {f : Frame} {i : Instr} (h : decodeRequest f = .request i) :
    i.wellFormed = true := by
  unfold decodeRequest at h
  split at h
  · rename_i n j hn hj
    split at h
    · rename_i hlen
      obtain rfl := RequestRead.request.inj h
      unfold requestOf at hj
      split at hj <;> cases hj
      case h_8 hk =>
        simp only [payloadLength, hk, Option.some.injEq] at hn
        simpa [Instr.wellFormed] using halvesOf_length 256 (f.payload.drop 4) (by simp; omega)
      case h_25 hk =>
        simp only [payloadLength, hk, Option.some.injEq] at hn
        simpa [Instr.wellFormed] using hlen.trans hn.symm
      case h_26 hk =>
        simp only [payloadLength, hk, Option.some.injEq] at hn
        simpa [Instr.wellFormed] using
          recordsOf_length (byteAt f.payload 3).toNat (f.payload.drop 4) (by simp; omega)
      case h_37 hk =>
        simp only [payloadLength, hk, Option.some.injEq] at hn
        simp [Instr.wellFormed]
        omega
      all_goals rfl
    · cases h
  · cases h

/-- A request whose lists have not their lengths never reaches its block. -/
theorem submit_of_not_wellFormed {i : Instr} (h : i.wellFormed = false) (take take' : State → Answer)
    (s : State) : submit i take s = submit i take' s := by
  unfold submit
  simp [h]

theorem State.StoreWf.request {s t : State} (hs : s.StoreWf) {i : Instr} {take : State → Answer}
    (ht : takeOf i = some take) (h : exec i s = .next t) : t.StoreWf := by
  have hsubmit := (exec_request ht s).symm.trans h
  have hlink : ∀ (u : State) (l : Link), u.StoreWf → ({ u with link := l } : State).StoreWf :=
    fun _ _ hu => hu.of_store rfl
  cases hw : i.wellFormed with
  | true => exact submit_keeps State.StoreWf i take s t hs (hs.take ht hw) hlink hsubmit
  | false =>
    exact submit_keeps State.StoreWf i (refuse .badFrame) s t hs hs hlink
      ((submit_of_not_wellFormed hw _ take s).trans hsubmit)

/-! ### Events -/

theorem State.StoreWf.event {s t : State} {f : State → State} (hs : s.StoreWf) (hf : (f s).StoreWf)
    (h : event f s = .next t) : t.StoreWf :=
  event_keeps State.StoreWf f s t hs hf (fun _ _ hu => hu.of_store rfl) h

/-- An event that does not write the store. -/
theorem State.StoreWf.quietEvent {s t : State} {f : State → State} (hs : s.StoreWf)
    (hf : (f s).store = s.store) (h : Machine.event f s = .next t) : t.StoreWf :=
  hs.event (hs.of_store hf) h

theorem State.StoreWf.handOnNext {s : State} (hs : s.StoreWf) : s.handOnNext.StoreWf := by
  unfold State.handOnNext
  split
  · rename_i f rest _ _
    have hs' : ({ s with link := { s.link with requests := rest } } : State).StoreWf := hs.of_store rfl
    unfold State.handOn
    split
    · exact hs'.of_store rfl
    · exact hs'.of_store rfl
    · rename_i i hi
      split
      · rename_i ht
        exact (hs'.take ht (wellFormed_of_decodeRequest hi)).of_store rfl
      · exact hs'
  · exact hs

@[simp] theorem State.store_engineReset (s : State) : s.engineReset.store = s.store := by
  have h : ((s.eachChannel fun c s => s.resetChannel c).cancelImport .request).store = s.store := by
    rw [State.store_cancelImport, State.store_eachChannel _ fun c u => u.store_resetChannel c]
  unfold State.engineReset
  generalize (s.eachChannel fun c s => s.resetChannel c).cancelImport .request = u at h
  exact h

@[simp] theorem State.store_completeSending (s : State) : s.completeSending.store = s.store := by
  unfold State.completeSending
  split
  · rfl
  · rfl
  · unfold State.afterReply
    split
    · rfl
    · rfl
    · exact State.store_engineReset _
  · rfl

/-- R64: what every reset but the engine reset leaves. -/
theorem State.StoreWf.of_reset {t : State} (h : t.store = State.reset.store) : t.StoreWf :=
  State.reset_storeWf.of_store h

theorem State.store_execPowerOnReset {s t : State} {rate : BitVec 2} {lib ref : Bool}
    (h : exec (.powerOnReset rate lib ref) s = .next t) : t.store = State.reset.store := by
  obtain rfl := Host.Outcome.next.inj h
  split
  · rfl
  · rw [State.store_leaveReset]; rfl

theorem State.store_execResetLine {s t : State} (h : exec .resetLine s = .next t) :
    t.store = State.reset.store := by
  obtain rfl := Host.Outcome.next.inj h
  rfl

theorem State.store_execResetLineRelease {s t : State} (h : exec .resetLineRelease s = .next t) :
    t.store = s.store := by
  obtain rfl := Host.Outcome.next.inj h
  split
  · rw [State.store_leaveReset]; rfl
  · rfl

theorem State.store_execPauseLineChange {s t : State} {high : Bool}
    (h : exec (.pauseLineChange high) s = .next t) : t.store = s.store := by
  obtain rfl := Host.Outcome.next.inj h
  rw [State.store_transmit, State.store_eachChannel _ fun c u => u.store_followPauseLine c]
  rfl

theorem State.store_execPageDecay {s t : State} {page : BitVec 15} {data : List Byte}
    (h : exec (.pageDecay page data) s = .next t) : t.store = s.store := by
  obtain rfl := Host.Outcome.next.inj h
  rw [State.store_transmit]
  split <;> simp

/-- Every command keeps the invariant of the store. -/
theorem State.StoreWf.exec {s t : State} (hs : s.StoreWf) (i : Instr) (h : exec i s = .next t) :
    t.StoreWf := by
  cases i
  case receiveCharacter =>
    change execReceiveCharacter _ _ s = .next t at h
    refine hs.quietEvent ?_ h
    split <;> simp
  case linkGapTimeout => exact hs.quietEvent s.store_linkGap h
  case requestHandOn => exact hs.event hs.handOnNext h
  case frameSent => exact hs.quietEvent s.store_completeSending h
  case standbyBegin =>
    refine hs.quietEvent ?_ h
    split <;> simp
  case engineResetPerformed =>
    refine hs.quietEvent ?_ h
    split <;> simp
  case powerOnReset => exact .of_reset (State.store_execPowerOnReset h)
  case resetLine => exact .of_reset (State.store_execResetLine h)
  case guardEnableChange =>
    obtain rfl := Host.Outcome.next.inj h
    exact hs.of_store rfl
  case pauseLineChange => exact hs.of_store (State.store_execPauseLineChange h)
  case triggerLineChange =>
    obtain rfl := Host.Outcome.next.inj h
    exact hs.of_store (s.store_changeTriggerLine _ _)
  case lockAcquired => exact hs.quietEvent s.store_lockAcquired h
  case lockTimeoutExpiry =>
    change execLockTimeoutExpiry s = .next t at h
    refine hs.quietEvent ?_ h
    simp
  case referenceLost => exact hs.quietEvent s.store_referenceLost h
  case transferDone => exact hs.quietEvent s.store_transferDone h
  case holdRaise =>
    refine hs.quietEvent ?_ h
    split <;> simp
  case holdDrop =>
    refine hs.quietEvent ?_ h
    split <;> simp
  case samplePeriod =>
    change execSamplePeriod _ s = .next t at h
    refine hs.quietEvent ?_ h
    split
    · rfl
    · simp only
      split <;> simp
  case timeBaseTap k => exact hs.quietEvent (s.store_tapEvent k) h
  case timerExpiry =>
    change execTimerExpiry _ s = .next t at h
    refine hs.quietEvent ?_ h
    split <;> simp
  case operandChange =>
    change execOperandChange _ s = .next t at h
    refine hs.quietEvent ?_ h
    simp
  case importPageComplete =>
    change execImportPageComplete _ _ s = .next t at h
    refine hs.quietEvent ?_ h
    split
    · split <;> simp
    · rfl
  case walkIntervalExpiry =>
    refine hs.quietEvent ?_ h
    split <;> simp
  case scanReadComplete =>
    change execScanReadComplete _ s = .next t at h
    refine hs.quietEvent ?_ h
    split
    · split <;> simp
    · rfl
  case resetLineRelease => exact hs.of_store (State.store_execResetLineRelease h)
  case pageDecay => exact hs.of_store (State.store_execPageDecay h)
  all_goals exact hs.request rfl h

/-- A step of the machine keeps it. -/
theorem State.StoreWf.step {s t : State} (hs : s.StoreWf) (h : step s = .next t) : t.StoreWf := by
  unfold Machine.step at h
  split at h
  · rename_i c rest _
    exact State.StoreWf.exec (s := { s with pending := rest }) (hs.of_store rfl) c h
  · unfold idle at h
    split at h
    · exact hs.exec _ h
    · obtain rfl := Host.Outcome.next.inj h
      exact hs.of_store s.store_tick

end Sys2Proof.Machine

namespace Sys2Proof.Proofs
open Machine

/-- Settles O59: only SET PARTITION, WRITE STEPS and the resets write the store, and each keeps its
invariant. -/
theorem storedStepsStayChecked : Obligations.StoredStepsStayChecked := by
  intro s t hs h
  exact hs.step h

end Sys2Proof.Proofs
end

section
/-!
The Step Store's partition after each kind of reset and through standby (R64).
-/
namespace Sys2Proof.Machine

/-- An event whose work leaves the store as it was leaves it as it was. -/
theorem State.store_event {f : State → State} {s t : State} (h : event f s = .next t)
    (hf : (f s).store = s.store) : t.store = s.store :=
  event_keeps (fun u => u.store = s.store) f s t rfl hf (fun _ _ hu => hu) h

theorem State.store_execEngineResetPerformed {s t : State} (h : exec .engineResetPerformed s = .next t) :
    t.store = s.store := by
  refine State.store_event h ?_
  split <;> simp

theorem State.store_execStandbyBegin {s t : State} (h : exec .standbyBegin s = .next t) :
    t.store = s.store := by
  refine State.store_event h ?_
  split <;> simp

theorem State.store_execWake {tag : Byte} {s t : State} (h : exec (.wake tag) s = .next t) :
    t.store = s.store :=
  submit_keeps (fun u => u.store = s.store) (.wake tag) takeWake s t rfl s.store_takeWake (fun _ _ hu => hu) h

theorem State.partition_congr {s t : State} (h : t.store = s.store) : t.partition = s.partition :=
  congrArg Prod.fst h

/-- R60: the windows of the reset state are the eighths of the store. -/
theorem State.windows_reset (c : Chan) :
    State.reset.windowSize c = 512 ∧ State.reset.windowStart c = 512 * c.val := by
  revert c
  decide

theorem State.windows_of_store_reset {t : State} (h : t.store = State.reset.store) (c : Chan) :
    t.windowSize c = 512 ∧ t.windowStart c = 512 * c.val := by
  unfold State.windowSize State.windowStart
  rw [State.partition_congr h]
  exact State.windows_reset c

end Sys2Proof.Machine

namespace Sys2Proof.Proofs
open Machine

/-- Settles O16: the power-on reset and the RESET line restore the reset partition, and the engine reset,
standby and waking leave the store as it was. -/
theorem partitionThroughResets : Obligations.PartitionThroughResets := fun _ =>
  ⟨fun _ _ _ _ h => State.windows_of_store_reset (State.store_execPowerOnReset h),
    fun _ h => State.windows_of_store_reset (State.store_execResetLine h),
    fun _ h => State.partition_congr (State.store_execEngineResetPerformed h),
    fun _ h => State.partition_congr (State.store_execStandbyBegin h),
    fun _ _ h => State.partition_congr (State.store_execWake h)⟩

end Sys2Proof.Proofs
end

section
/-!
The requests that write the Step Store (R60, R61, R74, R75): what each answers, case by case, and the statement
about them.
-/
namespace Sys2Proof.Machine

variable {tag : Byte} {s : State}

theorem State.anyActive_iff : s.anyActive = true ↔ ∃ c : Chan, (s.engine c).run.active = true := by
  simp [State.anyActive, mem_allChannels]

/-! ### SET PARTITION -/

section
variable {counts : List Byte}

theorem exec_setPartition (ho : s.open = true) (hl : counts.length = 8) :
    exec (.setPartition tag counts) s =
      .next ((takeSetPartition counts s).1.withReply 0x30 tag (takeSetPartition counts s).2) := by
  rw [exec_open (take := takeSetPartition counts) rfl rfl (by simp [Instr.wellFormed, hl]) ho]

theorem takeSetPartition_range (h : (∃ k ∈ counts, 64 < k.toNat) ∨ 64 < (counts.map BitVec.toNat).sum) :
    takeSetPartition counts s = answer .range (sizesBytes s.partition) s :=
  if_pos (by simpa using h)

/-- R60: past the RANGE check the two further outcomes rest on the engines alone. -/
theorem takeSetPartition_fits (hmax : ∀ k ∈ counts, k.toNat ≤ 64) (hsum : (counts.map BitVec.toNat).sum ≤ 64) :
    takeSetPartition counts s =
      if s.anyActive then answer .channelActive (sizesBytes s.partition) s
      else answer .ok (sizesBytes (sizesOf counts)) { s with partition := sizesOf counts } := by
  refine if_neg ?_
  simp only [List.any_eq_true, decide_eq_true_eq, not_or, not_exists, not_and, not_lt]
  exact ⟨hmax, hsum⟩

end

/-! ### WRITE STEPS -/

section
variable {c : Chan} {first : Half} {count : Byte} {records : List (BitVec 64)}

theorem exec_writeSteps (channel : Byte) (ho : s.open = true) (hl : records.length = count.toNat) :
    exec (.writeSteps tag channel first count records) s =
      .next ((takeWriteSteps channel first count records s).1.withReply 0x31 tag
        (takeWriteSteps channel first count records s).2) := by
  rw [exec_open (take := takeWriteSteps channel first count records) rfl rfl (by simp [Instr.wellFormed, hl]) ho]

theorem takeWriteSteps_range (h : count.toNat = 0 ∨ 128 < count.toNat) :
    takeWriteSteps (BitVec.ofNat 8 c.val) first count records s = refuse .range s := by
  simp only [takeWriteSteps, chanOfCode_ofNat, if_pos h]

theorem takeWriteSteps_active (h : ¬(count.toNat = 0 ∨ 128 < count.toNat)) (ha : (s.engine c).run.active = true) :
    takeWriteSteps (BitVec.ofNat 8 c.val) first count records s = refuse .channelActive s := by
  simp only [takeWriteSteps, chanOfCode_ofNat, if_neg h, ha, if_true]

theorem takeWriteSteps_badWindow (h : ¬(count.toNat = 0 ∨ 128 < count.toNat))
    (ha : (s.engine c).run.active = false) (hw : s.windowSize c < first.toNat + count.toNat) :
    takeWriteSteps (BitVec.ofNat 8 c.val) first count records s = refuse .badWindow s := by
  simp only [takeWriteSteps, chanOfCode_ofNat, if_neg h, ha, if_pos hw, Bool.false_eq_true, if_false]

theorem takeWriteSteps_fails {k : Nat} {reason : StepReason} (h : ¬(count.toNat = 0 ∨ 128 < count.toNat))
    (ha : (s.engine c).run.active = false) (hw : first.toNat + count.toNat ≤ s.windowSize c)
    (hchecks : checkRecords 0 records = .error (k, reason)) :
    takeWriteSteps (BitVec.ofNat 8 c.val) first count records s =
      answer .range (byte1 k ++ byte2 (first.toNat + k) ++ byte1 reason.code) s := by
  simp only [takeWriteSteps, chanOfCode_ofNat, if_neg h, ha, if_neg (Nat.not_lt.mpr hw), Bool.false_eq_true,
    if_false, hchecks]

theorem takeWriteSteps_passes {xs : List Step} (h : ¬(count.toNat = 0 ∨ 128 < count.toNat))
    (ha : (s.engine c).run.active = false) (hw : first.toNat + count.toNat ≤ s.windowSize c)
    (hchecks : checkRecords 0 records = .ok xs) :
    takeWriteSteps (BitVec.ofNat 8 c.val) first count records s =
      answer .ok [] { s with steps := writeStepsAt s.steps (s.windowStart c + first.toNat) xs } := by
  simp only [takeWriteSteps, chanOfCode_ofNat, if_neg h, ha, if_neg (Nat.not_lt.mpr hw), Bool.false_eq_true,
    if_false, hchecks]

end

end Sys2Proof.Machine

namespace Sys2Proof.Proofs
open Machine

/-- Settles O49, request by request: the refusals in their order, then the windows and the records stored. -/
theorem storeRequests : Obligations.StoreRequests := by
  intro tag s ho
  refine ⟨fun counts hl => ⟨fun hrange => ?_, fun hmax hsum => ⟨fun hactive => ?_, fun hidle => ?_⟩⟩,
    fun c first count records hl => ⟨fun hrange => ?_, fun hmin hmax => ?_⟩⟩
  · rw [exec_setPartition ho hl, takeSetPartition_range hrange]
    rfl
  · rw [exec_setPartition ho hl, takeSetPartition_fits hmax hsum, if_pos (State.anyActive_iff.mpr hactive)]
    rfl
  · have hnone : ¬s.anyActive = true := by
      simp [State.anyActive_iff, hidle]
    refine ⟨{ s with partition := sizesOf counts }, ?_, s.windowSize_sizesOf counts, rfl⟩
    rw [exec_setPartition ho hl, takeSetPartition_fits hmax hsum, if_neg hnone]
    rfl
  · rw [exec_writeSteps _ ho hl, takeWriteSteps_range hrange]
    rfl
  · have hcount : ¬(count.toNat = 0 ∨ 128 < count.toNat) := by omega
    refine ⟨fun hactive => ?_, fun hidle hwindow => ?_, fun hidle hwindow => ⟨fun k reason hk hbefore hfails => ?_,
      fun xs hlen hrising hpass => ?_⟩⟩
    · rw [exec_writeSteps _ ho hl, takeWriteSteps_active hcount hactive]
      rfl
    · rw [exec_writeSteps _ ho hl, takeWriteSteps_badWindow hcount hidle hwindow]
      rfl
    · have hchecks := checkRecords_error records 0 k reason (by omega) hbefore hfails
      rw [Nat.zero_add] at hchecks
      rw [exec_writeSteps _ ho hl, takeWriteSteps_fails hcount hidle hwindow hchecks]
      rfl
    · have hchecks := checkRecords_ok records 0 xs (by omega) fun j hj => hpass j (by omega)
      refine ⟨{ s with steps := writeStepsAt s.steps (s.windowStart c + first.toNat) xs }, ?_, fun k => ?_, rfl⟩
      · rw [exec_writeSteps _ ho hl, takeWriteSteps_passes hcount hidle hwindow hchecks]
        rfl
      · rw [← hlen]
        exact get_writeStepsAt xs s.steps _ k hrising

end Sys2Proof.Proofs
end

section
/-!
READ CHANNEL, CLEAR FAULT and SET POLICY (R109, R110, R111): what each answers, case by case, and the statement
about them.
-/
namespace Sys2Proof.Machine

variable {tag channel : Byte} {s : State} {c : Chan}

/-! ### READ CHANNEL -/

theorem exec_readChannel (ho : s.open = true) :
    exec (.readChannel tag (BitVec.ofNat 8 c.val)) s = .next (s.withReply 0x3C tag (0x00 :: (s.chan c).bytes)) := by
  rw [exec_open (take := takeReadChannel (BitVec.ofNat 8 c.val)) rfl rfl rfl ho]
  simp only [takeReadChannel, chanOfCode_ofNat]
  rfl

/-- R111: an optional condition on the link. -/
theorem optionalPart_condition (o : Option Condition) :
    optionalPart 2 (o.map Condition.bytes) =
      match o with
      | some q => [1, BitVec.ofNat 8 q.operand.code, if q.negated then 1 else 0]
      | none => [0, 0, 0] := by
  cases o <;> rfl

theorem optionalPart_index (e : Engine) :
    optionalPart 2 (if e.run = .idle then none else some (byte2 e.index)) =
      if e.run = .idle then [0, 0, 0] else 1 :: byte2 e.index := by
  split <;> rfl

theorem optionalPart_activity (e : Engine) :
    optionalPart 1 (if e.run.inProgram then some (byte1 e.activity.code) else none) =
      if e.run.inProgram then [1, BitVec.ofNat 8 e.activity.code] else [0, 0] := by
  split <;> rfl

theorem optionalPart_playRecord (e : Engine) :
    optionalPart 10 (if e.run.inProgram then e.activity.playRecord?.map PlayRecord.bytes else none) =
      match e.run.inProgram, e.activity.playRecord? with
      | true, some p => 1 :: p.bytes
      | _, _ => [0, 0, 0, 0, 0, 0, 0, 0, 0, 0, 0] := by
  cases e.run.inProgram <;> cases e.activity.playRecord? <;> rfl

theorem countedList_map {α : Type} (l : List α) (f : α → List Byte) :
    countedList (l.map f) = BitVec.ofNat 8 l.length :: l.flatMap f := by
  simp only [countedList, List.length_map, List.flatMap_def]
  rfl

theorem FaultRecord.bytes_eq (f : FaultRecord) :
    f.bytes = BitVec.ofNat 8 f.cause.code :: byte2 f.index ++
      (match f.handle with
        | some h => 1 :: byte2 h
        | none => [0, 0, 0]) ++
      [BitVec.ofNat 8 f.loopDepth, BitVec.ofNat 8 f.returnDepth] := by
  unfold FaultRecord.bytes
  cases f.handle <;> rfl

theorem optionalPart_fault (o : Option FaultRecord) :
    optionalPart 8 (o.map FaultRecord.bytes) =
      match o with
      | some f => 1 :: f.bytes
      | none => [0, 0, 0, 0, 0, 0, 0, 0, 0] := by
  cases o <;> rfl

/-! ### CLEAR FAULT -/

theorem exec_clearFault (ho : s.open = true) :
    exec (.clearFault tag channel) s =
      .next ((takeClearFault channel s).1.withReply 0x3D tag (takeClearFault channel s).2) := by
  rw [exec_open (take := takeClearFault channel) rfl rfl rfl ho]

theorem takeClearFault_faulted {f : FaultRecord} (hr : (s.engine c).run = .faulted)
    (hf : (s.engine c).fault = some f) :
    takeClearFault (BitVec.ofNat 8 c.val) s = answer .ok f.bytes (s.setChan c (s.chan c).stopped) := by
  simp only [takeClearFault, chanOfCode_ofNat, hr, hf, State.idleChannel_eq]

theorem takeClearFault_refused (hr : (s.engine c).run ≠ .faulted) :
    takeClearFault (BitVec.ofNat 8 c.val) s = refuse .badState s := by
  simp only [takeClearFault, chanOfCode_ofNat]
  split
  · contradiction
  · rfl

/-! ### SET POLICY -/

section
variable {policy routing enable : Byte} {p : DamagePolicy} {r n : Bool}

theorem exec_setPolicy (ho : s.open = true) :
    exec (.setPolicy tag channel policy routing enable) s =
      .next ((takeSetPolicy channel policy routing enable s).1.withReply 0x3E tag
        (takeSetPolicy channel policy routing enable s).2) := by
  rw [exec_open (take := takeSetPolicy channel policy routing enable) rfl rfl rfl ho]

theorem byte1_of_damagePolicy (h : DamagePolicy.ofCode policy = some p) : byte1 p.code = [policy] := by
  revert p policy
  decide

theorem byteOfBool_of_boolOfCode {b : Byte} {v : Bool} (h : boolOfCode b = some v) : byteOfBool v = [b] := by
  revert v b
  decide

/-- R110: the channel with the policy, the routing, the timer's notice and the LINE reason set, in a run state. -/
def Channel.underPolicy (x : Channel) (p : DamagePolicy) (r n line : Bool) (run : RunState) : Channel :=
  { x with
    engine := { x.engine with policy := p, pauseRouting := r, linePause := line, run := run }
    timer := { x.timer with notify := n } }

/-- R105, R110: SET POLICY sets the fields and the LINE reason as one change, and then follows the pause
reasons. -/
theorem takeSetPolicy_ofNat (hp : DamagePolicy.ofCode policy = some p) (hr : boolOfCode routing = some r)
    (hn : boolOfCode enable = some n) :
    takeSetPolicy (BitVec.ofNat 8 c.val) policy routing enable s =
      answer .ok [policy, routing, enable]
        ((s.setChan c ((s.chan c).underPolicy p r n (s.pauseLine && r) (s.engine c).run)).pauseChanged c) := by
  simp only [takeSetPolicy, chanOfCode_ofNat, hp, hr, hn, byte1_of_damagePolicy hp, byteOfBool_of_boolOfCode hr,
    byteOfBool_of_boolOfCode hn]
  simp [State.followPauseLine, State.setEngine, State.setTimer, State.engine, State.timer,
    Channel.underPolicy, State.chan_setChan_self, State.setChan_setChan]

variable {x : Channel} {line : Bool} {run : RunState}

theorem State.engine_underPolicy :
    (s.setChan c (x.underPolicy p r n line run)).engine c =
      { x.engine with policy := p, pauseRouting := r, linePause := line, run := run } := by
  simp [State.engine, Channel.underPolicy, State.chan_setChan_self]

theorem State.setEngine_underPolicy (run' : RunState) :
    (s.setChan c (x.underPolicy p r n line run)).setEngine c
        { (s.setChan c (x.underPolicy p r n line run)).engine c with run := run' } =
      s.setChan c (x.underPolicy p r n line run') := by
  simp [State.setEngine, State.engine, Channel.underPolicy, State.chan_setChan_self, State.setChan_setChan]

/-- R106, R110: a RUNNING channel with a reason set is PAUSED. -/
theorem State.pauseChanged_underPolicy_set (hr : run = .running)
    (hset : x.engine.requestPause = true ∨ line = true) :
    (s.setChan c (x.underPolicy p r n line run)).pauseChanged c =
      s.setChan c (x.underPolicy p r n line .paused) := by
  rw [State.pauseChanged_set (by rw [engine_underPolicy, hr]) (by rw [engine_underPolicy]; exact hset),
    State.setEngine_underPolicy]

/-- R106, R110: a PAUSED channel with no reason set is RUNNING, and goes on unless it is held. -/
theorem State.pauseChanged_underPolicy_clear (hr : run = .paused)
    (hset : ¬(x.engine.requestPause = true ∨ line = true)) :
    (x.engine.held = true → (s.setChan c (x.underPolicy p r n line run)).pauseChanged c =
      s.setChan c (x.underPolicy p r n line .running)) ∧
    (x.engine.held = false → (s.setChan c (x.underPolicy p r n line .running)).GoesOnTo c
      ((s.setChan c (x.underPolicy p r n line run)).pauseChanged c)) := by
  have h := State.pauseChanged_clear (s := s.setChan c (x.underPolicy p r n line run)) (c := c)
    (by rw [engine_underPolicy, hr]) (by rw [engine_underPolicy]; exact hset)
  rwa [State.setEngine_underPolicy, State.engine_underPolicy] at h

/-- R106, R110: in any other case the run state stays. -/
theorem State.pauseChanged_underPolicy_same
    (h1 : ¬(run = .running ∧ (x.engine.requestPause = true ∨ line = true)))
    (h2 : ¬(run = .paused ∧ ¬(x.engine.requestPause = true ∨ line = true))) :
    (s.setChan c (x.underPolicy p r n line run)).pauseChanged c = s.setChan c (x.underPolicy p r n line run) :=
  State.pauseChanged_same (by rw [engine_underPolicy]; exact h1) (by rw [engine_underPolicy]; exact h2)

end

end Sys2Proof.Machine

namespace Sys2Proof.Proofs
open Machine

/-- Settles O33: READ CHANNEL part by part of its layout; SET POLICY as one change of the channel followed by the
change of its pause reasons, whose three cases are R106's. -/
theorem channelRequests : Obligations.ChannelRequests := by
  refine ⟨fun tag policy routing enable c s ho => ⟨?_, fun f hr hf => ?_, fun hr => ?_,
    fun p r n hp hr hn => ?_⟩, rfl, fun _ _ => rfl, rfl, rfl, rfl⟩
  · rw [exec_readChannel ho]
    refine congrArg (fun reply => Host.Outcome.next (s.withReply 0x3C tag reply)) ?_
    unfold Channel.bytes State.playOf State.engine
    generalize s.chan c = x
    simp only [optionalPart_condition, optionalPart_index, optionalPart_activity, optionalPart_playRecord,
      countedList_map, optionalPart_fault, FaultRecord.bytes_eq]
    simp only [List.append_assoc, List.cons_append, List.nil_append, byte1, byteOfBool, BitVec.ofNat_toNat]
    rfl
  · rw [exec_clearFault ho, takeClearFault_faulted hr hf, answer, FaultRecord.bytes_eq]
    rfl
  · rw [exec_clearFault ho, takeClearFault_refused hr]
    rfl
  · intro line set becomes answers
    have hanswers : ∀ t, (becomes (s.chan c).engine.run).pauseChanged c = t → answers t := fun t ht => by
      refine (exec_setPolicy ho).trans ?_
      rw [takeSetPolicy_ofNat hp hr hn]
      exact congrArg (fun t => Host.Outcome.next (t.withReply 0x3E tag [0x00, policy, routing, enable])) ht
    refine ⟨fun hrun hset => hanswers _ (State.pauseChanged_underPolicy_set hrun hset), fun hrun hset => ?_,
      fun hrun hpaused => hanswers _ (State.pauseChanged_underPolicy_same hrun hpaused)⟩
    obtain ⟨hheld, hfree⟩ :=
      State.pauseChanged_underPolicy_clear (s := s) (c := c) (p := p) (r := r) (n := n) hrun hset
    exact ⟨fun hh => hanswers _ (hheld hh), fun hh => ⟨_, hfree hh, hanswers _ rfl⟩⟩

end Sys2Proof.Proofs
end

section
/-!
The channels and the PAUSE line under the operations that are not at a channel engine: images, imports, the
walk, the clock, the link and the requests on them leave both as they were.
-/
namespace Sys2Proof.Machine

/-- R79, R105: the eight channels and the level of the PAUSE line. -/
def State.panel (s : State) : Vector Channel 8 × Bool := (s.channels, s.pauseLine)

@[simp] theorem State.panel_notify (s : State) (n : Notice) : (s.notify n).panel = s.panel := rfl

@[simp] theorem State.panel_transmit (s : State) : s.transmit.panel = s.panel := rfl

@[simp] theorem State.panel_taken (s : State) (e : Instr) : (s.taken e).panel = s.panel := rfl

@[simp] theorem State.panel_hand (s : State) (e : Instr) : (s.hand e).panel = s.panel := rfl

/-! ### Images and imports -/

@[simp] theorem State.panel_release (s : State) (n : Nat) : (s.release n).panel = s.panel := by
  unfold State.release
  simp only
  split <;> rfl

@[simp] theorem State.panel_endReference (s : State) (c : Chan) : (s.endReference c).panel = s.panel := by
  unfold State.endReference
  split <;> simp

@[simp] theorem State.panel_discardIncoming (s : State) (h : Nat) : (s.discardIncoming h).panel = s.panel := by
  unfold State.discardIncoming
  split <;> rfl

@[simp] theorem State.panel_cancelImport (s : State) (cause : CancelCause) :
    (s.cancelImport cause).panel = s.panel := by
  unfold State.cancelImport
  split
  · rfl
  · exact State.panel_discardIncoming _ _

@[simp] theorem State.panel_dropIncoming (s : State) (h : Nat) (cause : CancelCause) :
    (s.dropIncoming h cause).2.panel = s.panel := by
  unfold State.dropIncoming
  split <;> simp

@[simp] theorem State.panel_releaseIncoming (s : State) (h : Nat) : (s.releaseIncoming h).2.panel = s.panel := by
  unfold State.releaseIncoming
  split <;> simp

@[simp] theorem State.panel_dispose (s : State) (h : Nat) (i : Image) : (s.dispose h i).2.panel = s.panel := by
  unfold State.dispose
  split <;> rfl

theorem State.panel_createImage {s u : State} {h n : Nat} {source : FillSource} {flag : Bool} {i : Image}
    (hc : s.createImage h n source flag = some (i, u)) : u.panel = s.panel := by
  obtain ⟨first, free, -, -, rfl⟩ := State.createImage_some hc
  rfl

theorem State.panel_commitAttempt {s u : State} {h : Nat} {i : Image} {d : Option (Nat × Disposition)}
    (hc : s.commitAttempt h i = .ok (d, u)) : u.panel = s.panel := by
  unfold State.commitAttempt at hc
  split at hc
  · obtain ⟨-, rfl⟩ := Prod.mk.inj (Except.ok.inj hc)
    rfl
  · split at hc
    · cases hc
    · obtain ⟨-, rfl⟩ := Prod.mk.inj (Except.ok.inj hc)
      exact State.panel_dispose _ _ _

@[simp] theorem State.panel_writeImagePage (s : State) (h : Nat) (i : Image) (k : Nat) (data : List Byte) :
    (s.writeImagePage h i k data).panel = s.panel := by
  unfold State.writeImagePage
  simp only
  split <;> rfl

@[simp] theorem State.panel_completeImport (s : State) (r : ImportRecord) (i : Image) :
    (s.completeImport r i).panel = s.panel := by
  unfold State.completeImport
  simp only
  split
  · split
    · rfl
    · rename_i hc
      exact (State.panel_commitAttempt hc :)
  · rfl

@[simp] theorem State.panel_completePage (s : State) (r : ImportRecord) (data : List Byte) :
    (s.completePage r data).panel = s.panel := by
  unfold State.completePage
  split
  · rfl
  · simp only
    split
    · exact s.panel_writeImagePage _ _ _ _
    · simp

@[simp] theorem State.panel_compareRead (s : State) (r : PageRead) : (s.compareRead r).panel = s.panel := by
  have hmark : ∀ i, (s.markDamage i r.page).panel = s.panel := fun i => by
    unfold State.markDamage
    simp only
    split
    · rfl
    · split <;> rfl
  unfold State.compareRead
  split
  · rfl
  · split
    · exact hmark _
    · rfl

theorem State.panel_decayPage (s : State) (page : Nat) (data : List Byte) :
    (s.decayPage page data).panel = s.panel := by
  unfold State.decayPage
  split <;> rfl

/-! ### The walk, the clock and the link -/

@[simp] theorem State.panel_handChanges (s : State) (f : Chan → Operand → Bool) :
    (s.handChanges f).panel = s.panel := by
  rw [State.handChanges_eq]
  rfl

theorem State.panel_writeFlags (s : State) (flags : BitVec 8) : (s.writeFlags flags).panel = s.panel := by
  unfold State.writeFlags
  exact State.panel_handChanges _ _

@[simp] theorem State.panel_visitPages : ∀ (n : Nat) (s : State), (s.visitPages n).panel = s.panel := by
  intro n
  induction n with
  | zero => intro s; rfl
  | succ n ih =>
    intro s
    unfold State.visitPages
    split
    · rfl
    · exact ih _

theorem State.panel_endVisit (s : State) : s.endVisit.panel = s.panel := by
  unfold State.endVisit
  simp only
  split
  · exact State.panel_visitPages _ _
  · rfl

theorem State.panel_resumeWalk (s : State) : s.resumeWalk.panel = s.panel := by
  unfold State.resumeWalk
  simp only
  split
  · exact State.panel_visitPages _ _
  · rfl

theorem State.panel_walkTick (s : State) : s.walkTick.panel = s.panel := by
  unfold State.walkTick
  split
  · split
    · rfl
    · split
      · exact State.panel_visitPages _ _
      · rfl
  · rfl

theorem State.panel_lockAcquired (s : State) : s.lockAcquired.panel = s.panel := by
  unfold State.lockAcquired
  split <;> rfl

theorem State.panel_lockTimeoutExpired (s : State) : s.lockTimeoutExpired.panel = s.panel := by
  unfold State.lockTimeoutExpired
  split <;> rfl

theorem State.panel_transferDone (s : State) : s.transferDone.panel = s.panel := by
  unfold State.transferDone
  split <;> rfl

theorem State.panel_referenceLost (s : State) : s.referenceLost.panel = s.panel := by
  unfold State.referenceLost
  split <;> rfl

theorem State.panel_leaveReset (s : State) : s.leaveReset.panel = s.panel := by
  unfold State.leaveReset
  split <;> rfl

theorem State.panel_tickTimeout (s : State) : s.tickTimeout.panel = s.panel := by
  unfold State.tickTimeout
  split
  · simp only
    split <;> rfl
  · rfl
  · rfl

theorem State.panel_tickChain (s : State) : s.tickChain.panel = s.panel := rfl

@[simp] theorem State.panel_arrive (s : State) (f : Frame) : (s.arrive f).panel = s.panel := by
  unfold State.arrive
  split <;> rfl

@[simp] theorem State.panel_failFrame (s : State) (st : Status) (tag : Byte) :
    (s.failFrame st tag).panel = s.panel := by
  unfold State.failFrame
  split <;> rfl

@[simp] theorem State.panel_takeHeader (s : State) (taken : List Byte) : (s.takeHeader taken).panel = s.panel := by
  unfold State.takeHeader
  split
  · simp only
    split
    · exact s.panel_failFrame _ _
    · split <;> rfl
  · rfl

@[simp] theorem State.panel_checkFrame (s : State) (f : Frame) (check : Half) :
    (s.checkFrame f check).panel = s.panel := by
  unfold State.checkFrame
  simp only
  split
  · exact State.panel_arrive _ f
  · exact State.panel_failFrame _ _ _

theorem State.panel_receiveByte (s : State) (b : Byte) : (s.receiveByte b).panel = s.panel := by
  unfold State.receiveByte
  split
  · split <;> rfl
  · simp
  · split <;> rfl
  · rfl
  · simp
  · rfl

theorem State.panel_discardPartial (s : State) (r : Receive) : (s.discardPartial r).panel = s.panel := by
  unfold State.discardPartial
  split
  · exact s.panel_failFrame _ _
  · rfl

theorem State.panel_framingError (s : State) : s.framingError.panel = s.panel := by
  unfold State.framingError
  split
  · rfl
  · rfl
  all_goals exact s.panel_discardPartial _

theorem State.panel_linkGap (s : State) : s.linkGap.panel = s.panel := by
  unfold State.linkGap
  split
  · rfl
  · rfl
  all_goals exact s.panel_discardPartial _

/-! ### Requests that are not at a channel -/

section
variable (s : State)

theorem State.panel_takeWake : (takeWake s).1.panel = s.panel := by
  unfold takeWake
  split
  · exact State.panel_resumeWalk _
  · rfl

theorem State.panel_takeEnterStandby : (takeEnterStandby s).1.panel = s.panel := by
  unfold takeEnterStandby
  split <;> rfl

theorem State.panel_takeSetNotices (m : Byte) : (takeSetNotices m s).1.panel = s.panel := by
  unfold takeSetNotices
  split <;> rfl

theorem State.panel_takeDefineImage (h : Half) (n : Quad) (b : Byte) :
    (takeDefineImage h n b s).1.panel = s.panel := by
  unfold takeDefineImage
  split
  · rfl
  · split
    · rfl
    · split
      · rfl
      · split
        · rfl
        · split
          · rfl
          · rename_i hc
            exact State.panel_createImage hc

theorem State.panel_takeWritePage (h k : Half) (xs : List Half) :
    (takeWritePage h k xs s).1.panel = s.panel := by
  unfold takeWritePage
  split
  · rfl
  · split
    · rfl
    · split
      · rfl
      · split
        · rfl
        · exact s.panel_writeImagePage _ _ _ _

theorem State.panel_takeFinishImage (h : Half) : (takeFinishImage h s).1.panel = s.panel := by
  unfold takeFinishImage
  split
  · rfl
  · split
    · rfl
    · split
      · split
        · rfl
        · simp only
          split
          · split
            · rfl
            · rename_i hc
              exact (State.panel_commitAttempt hc :)
          · rfl
      · rfl

theorem State.panel_takeCommit (h : Half) : (takeCommit h s).1.panel = s.panel := by
  unfold takeCommit
  split
  · rfl
  · split
    · rfl
    · split
      · rfl
      all_goals
        split
        · rfl
        · rename_i hc
          exact State.panel_commitAttempt hc

theorem State.panel_takeDropIncoming (h : Half) : (takeDropIncoming h s).1.panel = s.panel := by
  unfold takeDropIncoming
  split
  · rfl
  · split
    · rfl
    · exact s.panel_dropIncoming _ _

theorem State.panel_takeReleaseHandle (h : Half) : (takeReleaseHandle h s).1.panel = s.panel := by
  unfold takeReleaseHandle
  split
  · rfl
  · split
    · rfl
    · exact s.panel_releaseIncoming _
    · split
      · rfl
      · exact (State.panel_dispose _ _ _).trans (s.panel_releaseIncoming _)

theorem State.panel_takeReadHandle (h : Half) : (takeReadHandle h s).1.panel = s.panel := by
  unfold takeReadHandle
  split <;> rfl

theorem State.panel_takeReadMap (k : Half) : (takeReadMap k s).1.panel = s.panel := by
  unfold takeReadMap
  split <;> rfl

theorem State.panel_takeSetGuard (n : Byte) (f l : Half) (m : Byte) :
    (takeSetGuard n f l m s).1.panel = s.panel := by
  unfold takeSetGuard
  split
  · split
    · split
      · rfl
      · split <;> rfl
    · rfl
  · rfl

theorem State.panel_takeClearGuard (n : Byte) : (takeClearGuard n s).1.panel = s.panel := by
  unfold takeClearGuard
  split
  · split <;> rfl
  · rfl

theorem State.panel_takeLockGuards (n : Byte) : (takeLockGuards n s).1.panel = s.panel := by
  unfold takeLockGuards
  split
  · rfl
  · split <;> rfl

theorem State.panel_takeStartImport (h : Half) (a n : Quad) (b : Byte) :
    (takeStartImport h a n b s).1.panel = s.panel := by
  unfold takeStartImport
  simp only
  split
  · rfl
  · split
    · rfl
    · split
      · rfl
      · split
        · rfl
        · split
          · rfl
          · split
            · rfl
            · split
              · rfl
              · rename_i hc
                exact (State.panel_createImage hc :)

theorem State.panel_takeCancelImport : (takeCancelImport s).1.panel = s.panel := by
  unfold takeCancelImport
  split
  · rfl
  · exact s.panel_cancelImport _

theorem State.panel_takeCloseLibrary : (takeCloseLibrary s).1.panel = s.panel := by
  unfold takeCloseLibrary
  split
  · rfl
  · exact (State.panel_cancelImport _ _).trans rfl

theorem State.panel_takeSetWalk (e i b : Byte) (f l : Half) : (takeSetWalk e i b f l s).1.panel = s.panel := by
  unfold takeSetWalk
  simp only
  split
  · rfl
  · rfl
  · split
    · rfl
    · split <;> rfl

theorem State.panel_takeSetPartition (counts : List Byte) : (takeSetPartition counts s).1.panel = s.panel := by
  unfold takeSetPartition
  split
  · rfl
  · split <;> rfl

theorem State.panel_takeWriteSteps (x : Byte) (f : Half) (n : Byte) (rs : List (BitVec 64)) :
    (takeWriteSteps x f n rs s).1.panel = s.panel := by
  unfold takeWriteSteps
  split
  · rfl
  · split
    · rfl
    · split
      · rfl
      · split
        · rfl
        · split <;> rfl

theorem State.panel_takeReadSteps (x : Byte) (f : Half) (n : Byte) : (takeReadSteps x f n s).1.panel = s.panel := by
  unfold takeReadSteps
  split
  · rfl
  · split
    · rfl
    · split <;> rfl

theorem State.panel_takeReadChannel (x : Byte) : (takeReadChannel x s).1.panel = s.panel := by
  unfold takeReadChannel
  split <;> rfl

theorem State.panel_takeSetFlags (a b c : Byte) : (takeSetFlags a b c s).1.panel = s.panel := by
  unfold takeSetFlags
  split
  · rfl
  · simp only [answer, State.panel_writeFlags]

theorem State.panel_takeSetReference (x : Byte) : (takeSetReference x s).1.panel = s.panel := by
  unfold takeSetReference
  split
  · rfl
  · split
    · rfl
    · change State.panel (if _ then _ else _) = _
      split
      · rfl
      · split <;> rfl

end

end Sys2Proof.Machine
end

section
/-!
What is well-formed at one channel (R79, R105, R106, R148, R151, R159), in the forms that hold between the
parts of an event: what every intermediate form of a channel keeps (`Bounded`), a channel in its program that
no reason pauses (`Live`), and one that takes steps (`Ready`); and the changes of a channel that keep them.
-/
namespace Sys2Proof.Machine

/-! ### Forms of a channel -/

/-- All that a step keeps of a channel, under a level of the PAUSE line. -/
def Channel.WfUnder (line : Bool) (x : Channel) : Prop :=
  x.Wf ∧ x.engine.linePause = (line && x.engine.pauseRouting)

/-- What holds of a channel also in the middle of an event. -/
structure Channel.Bounded (line : Bool) (x : Channel) : Prop where
  loops : x.engine.loops.length ≤ 6
  returns : x.engine.returns.length ≤ 4
  line : x.engine.linePause = (line && x.engine.pauseRouting)
  count : x.timer.count ≤ 65535
  rate : x.rate.Wf
  inForce : x.output.inForce.Wf
  pending : ∀ g, x.output.pending = some g → g.Wf

/-- A RUNNING channel with no pause reason, whatever its activity. -/
structure Channel.Live (line : Bool) (x : Channel) : Prop extends x.Bounded line where
  run : x.engine.run = .running
  request : x.engine.requestPause = false
  free : x.engine.linePause = false
  start : x.engine.start = none
  fault : x.engine.fault = none
  timer : x.timer.running = true → 0 < x.timer.count

/-- R85: a channel that takes steps, after at most `k` of them at this event. -/
structure Channel.Ready (line : Bool) (k : Nat) (x : Channel) : Prop extends x.Live line where
  activity : x.engine.activity = .between
  stopPending : x.engine.stopPending = false
  steps : x.engine.stepsAtEvent ≤ k

section
variable {line : Bool} {k : Nat} {x : Channel}

theorem Channel.WfUnder.bounded (h : x.WfUnder line) : x.Bounded line where
  loops := h.1.engine.loops
  returns := h.1.engine.returns
  line := h.2
  count := h.1.timer.count
  rate := h.1.rate
  inForce := h.1.inForce
  pending := h.1.pending

theorem Channel.WfUnder.start_none (h : x.WfUnder line) (hr : x.engine.run ≠ .armed) : x.engine.start = none := by
  simpa [hr] using h.1.engine.start

theorem Channel.WfUnder.fault_none (h : x.WfUnder line) (hr : x.engine.run ≠ .faulted) :
    x.engine.fault = none := by
  simpa [hr] using h.1.engine.fault

theorem Channel.WfUnder.live (h : x.WfUnder line) (hr : x.engine.run = .running) : x.Live line :=
  { h.bounded with
    run := hr
    request := (h.1.engine.running hr).1
    free := (h.1.engine.running hr).2
    start := h.start_none (by simp [hr])
    fault := h.fault_none (by simp [hr])
    timer := fun ht => (h.1.timer.running ht).1 }

/-- R103: a channel outside a PLAY step has no stop pending. -/
theorem Channel.WfUnder.stopPending_false (h : x.WfUnder line) (ha : x.engine.activity.playRecord? = none) :
    x.engine.stopPending = false := by
  by_contra hs
  simpa [ha] using h.1.engine.stopPending (by simpa using hs)

/-- R151: outside its program a channel's timer is STOPPED. -/
theorem Channel.WfUnder.timer_stopped (h : x.WfUnder line) (hr : x.engine.run.inProgram = false) :
    x.timer.running = false := by
  by_contra ht
  simpa [hr] using (h.1.timer.running (by simpa using ht)).2

/-- A channel in the middle of its program is well-formed in an activity that its stop-pending mark allows. -/
theorem Channel.Live.wfUnder (h : x.Live line) (hs : x.engine.stepsAtEvent ≤ Config.stepsPerEvent)
    (ha : x.engine.stopPending = true → x.engine.activity.playRecord?.isSome = true) : x.WfUnder line where
  left :=
    { engine :=
        { loops := h.loops
          returns := h.returns
          steps := hs
          start := by simp [h.run, h.start]
          fault := by simp [h.run, h.fault]
          activity := fun hr => by simp [h.run, RunState.inProgram] at hr
          held := fun _ => by simp [h.run, RunState.active]
          request := fun hr => by simp [h.request] at hr
          stopPending := ha
          running := fun _ => ⟨h.request, h.free⟩
          paused := fun hr => by simp [h.run] at hr
          idle := fun hr => by simp [h.run] at hr }
      timer := ⟨h.count, fun ht => ⟨h.timer ht, by simp [h.run, RunState.inProgram]⟩⟩
      rate := h.rate
      inForce := h.inForce
      pending := h.pending }
  right := h.line

theorem Channel.Ready.wfUnder (h : x.Ready line k) (hk : k ≤ Config.stepsPerEvent) : x.WfUnder line :=
  h.toLive.wfUnder (h.steps.trans hk) fun hs => by simp [h.stopPending] at hs

theorem Channel.Ready.mono {j : Nat} (h : x.Ready line k) (hk : k ≤ j) : x.Ready line j :=
  { h with steps := h.steps.trans hk }

/-! ### The ends of a run -/

/-- R102: a channel whose run has ended is well-formed. -/
theorem Channel.Bounded.stopped (h : x.Bounded line) : x.stopped.WfUnder line where
  left :=
    { engine :=
        { Engine.reset_wf with
          start := rfl
          fault := rfl
          held := fun h => by cases h
          request := fun h => by cases h
          stopPending := fun h => by cases h
          running := fun h => by cases h
          paused := fun h => by cases h }
      timer := ⟨h.count, fun h => by cases h⟩
      rate := h.rate
      inForce := h.inForce
      pending := h.pending }
  right := h.line

/-- R107: a channel that has faulted. -/
def Channel.faulted (x : Channel) (f : FaultRecord) : Channel :=
  { x with
    engine := x.engine.toFaulted f
    timer := { x.timer with running := false }
    output := x.output.toRest }

theorem Channel.Bounded.faulted (h : x.Bounded line) (f : FaultRecord) : (x.faulted f).WfUnder line where
  left :=
    { engine :=
        { loops := h.loops
          returns := h.returns
          steps := Nat.zero_le _
          start := rfl
          fault := rfl
          activity := fun _ => rfl
          held := fun h => by cases h
          request := fun h => by cases h
          stopPending := fun h => by cases h
          running := fun h => by cases h
          paused := fun h => by cases h
          idle := fun h => by cases h }
      timer := ⟨h.count, fun h => by cases h⟩
      rate := h.rate
      inForce := h.inForce
      pending := h.pending }
  right := h.line

/-! ### Latches that a test consumes (R116) -/

/-- The channel with the latch of an operand clear. -/
def Channel.consumed (x : Channel) : Operand → Channel
  | .trig n => { x with latches := { x.latches with trig := x.latches.trig &&& ~~~(1#4 <<< n.val) } }
  | .soft => { x with latches := { x.latches with soft := false } }
  | .timer => { x with timer := { x.timer with expired := false } }
  | .flag _ | .last | .always => x

theorem State.consume_eq (s : State) (c : Chan) (o : Operand) :
    s.consume c o = s.setChan c ((s.chan c).consumed o) := by
  cases o <;> simp only [State.consume, Channel.consumed, State.setChan_chan] <;> rfl

theorem Channel.Bounded.consumed (h : x.Bounded line) (o : Operand) : (x.consumed o).Bounded line := by
  cases o <;> exact { h with }

theorem Channel.Live.consumed (h : x.Live line) (o : Operand) : (x.consumed o).Live line := by
  cases o <;> exact { h with }

theorem Channel.Ready.consumed (h : x.Ready line k) (o : Operand) : (x.consumed o).Ready line k := by
  cases o <;> exact { h with }

theorem Channel.WfUnder.consumed (h : x.WfUnder line) (o : Operand) : (x.consumed o).WfUnder line := by
  obtain ⟨hx, hl⟩ := h
  cases o <;> exact ⟨{ hx with timer := { hx.timer with } }, hl⟩

/-! ### Pause reasons (R105, R106) -/

/-- R106: the engine with the run state that its pause reasons call for. -/
def Engine.settled (e : Engine) : Engine :=
  { e with run :=
      match e.run, e.requestPause || e.linePause with
      | .running, true => .paused
      | .paused, false => .running
      | r, _ => r }

theorem Engine.settled_inProgram {e : Engine} (h : e.run.inProgram = true) :
    e.settled = { e with run := if e.requestPause || e.linePause then .paused else .running } := by
  unfold Engine.settled
  cases hr : e.run <;> simp only [hr, RunState.inProgram, reduceCtorEq] at h <;>
    cases e.requestPause || e.linePause <;> rfl

theorem Engine.settled_outside {e : Engine} (h : e.run.inProgram = false) : e.settled = e := by
  unfold Engine.settled
  split
  · rename_i hr _
    simp [hr, RunState.inProgram] at h
  · rename_i hr _
    simp [hr, RunState.inProgram] at h
  · rfl

theorem Engine.inProgram_settled (e : Engine) : e.settled.run.inProgram = e.run.inProgram := by
  cases h : e.run.inProgram with
  | true =>
    rw [Engine.settled_inProgram h]
    simp only
    split <;> rfl
  | false => rw [Engine.settled_outside h, h]

/-- R106: reasons that change pause a channel in its program, or let it go, and leave the others alone. -/
theorem Engine.Wf.settled {e : Engine} (h : e.Wf) (request lineOn : Bool)
    (hr : request = true → e.run.active = true) :
    ({ e with requestPause := request, linePause := lineOn } : Engine).settled.Wf := by
  cases hin : e.run.inProgram with
  | true =>
    have hstart : e.start = none := by
      have := h.start
      cases hrun : e.run <;> simp_all [RunState.inProgram]
    have hfault : e.fault = none := by
      have := h.fault
      cases hrun : e.run <;> simp_all [RunState.inProgram]
    rw [Engine.settled_inProgram (e := { e with requestPause := request, linePause := lineOn }) hin]
    cases request <;> cases lineOn <;>
      exact { h with
        start := by simp [hstart]
        fault := by simp [hfault]
        activity := by simp [RunState.inProgram]
        held := by simp [RunState.active]
        request := by simp [RunState.active]
        running := by simp
        paused := by simp
        idle := by simp }
  | false =>
    rw [Engine.settled_outside (e := { e with requestPause := request, linePause := lineOn }) hin]
    exact { h with
      request := hr
      running := fun hrun => absurd hin (by simp [show e.run = _ from hrun, RunState.inProgram])
      paused := fun hrun => absurd hin (by simp [show e.run = _ from hrun, RunState.inProgram]) }

/-- A channel whose pause reasons, policy and routing change with its run state. -/
theorem Channel.Wf.settled (h : x.Wf) (request lineOn : Bool) (hr : request = true → x.engine.run.active = true) :
    ({ x with engine :=
      ({ x.engine with requestPause := request, linePause := lineOn } : Engine).settled } : Channel).Wf :=
  { h with
    engine := h.engine.settled request lineOn hr
    timer := ⟨h.timer.count, fun ht => ⟨(h.timer.running ht).1, by
      rw [Engine.inProgram_settled]
      exact (h.timer.running ht).2⟩⟩ }

end

end Sys2Proof.Machine
end

section
/-!
Work at one channel as one relation (`State.Turns`): the other channels and the PAUSE line stay, and the
channel takes a form. Ends of a run, tests, sequential advance, the step kinds and the chain of steps.
-/
namespace Sys2Proof.Machine

/-- What stands before work at a channel and after it: the other channels and the PAUSE line are as they were,
and the channel is of a form. -/
structure State.Turns (s : State) (c : Chan) (Q : Channel → Prop) (t : State) : Prop where
  line : t.pauseLine = s.pauseLine
  others : ∀ d, c ≠ d → t.chan d = s.chan d
  own : Q (t.chan c)

variable {c : Chan} {line : Bool}

section
variable {s t u : State} {P Q : Channel → Prop}

theorem State.Turns.refl (h : Q (s.chan c)) : s.Turns c Q s := ⟨rfl, fun _ _ => rfl, h⟩

theorem State.Turns.trans (h : s.Turns c P t) (k : t.Turns c Q u) : s.Turns c Q u :=
  ⟨k.line.trans h.line, fun d hd => (k.others d hd).trans (h.others d hd), k.own⟩

theorem State.Turns.mono (h : s.Turns c P t) (hPQ : ∀ x, P x → Q x) : s.Turns c Q t :=
  ⟨h.line, h.others, hPQ _ h.own⟩

theorem State.chan_of_panel (h : t.panel = s.panel) (d : Chan) : t.chan d = s.chan d :=
  congrArg (fun v : Vector Channel 8 × Bool => v.1[d]) h

/-- Work elsewhere. -/
theorem State.Turns.of_panel (h : t.panel = s.panel) (hQ : Q (s.chan c)) : s.Turns c Q t :=
  ⟨congrArg Prod.snd h, fun d _ => State.chan_of_panel h d, by rwa [State.chan_of_panel h c]⟩

theorem State.Turns.then (h : s.Turns c Q t) (k : u.panel = t.panel) : s.Turns c Q u :=
  h.trans (.of_panel k h.own)

theorem State.Turns.after (k : t.panel = s.panel) (h : t.Turns c Q u) : s.Turns c Q u :=
  (State.Turns.of_panel (Q := fun _ => True) k trivial).trans h

theorem State.Turns.setChan {x : Channel} (h : Q x) : s.Turns c Q (s.setChan c x) :=
  ⟨rfl, fun _ hd => s.chan_setChan_ne hd x, by rwa [State.chan_setChan_self]⟩

theorem State.Turns.setEngine {e : Engine} (h : Q { s.chan c with engine := e }) :
    s.Turns c Q (s.setEngine c e) := .setChan h

theorem State.Turns.setOutput {o : Output} (h : Q { s.chan c with output := o }) :
    s.Turns c Q (s.setOutput c o) := .setChan h

theorem State.Turns.setTimer {x : Timer} (h : Q { s.chan c with timer := x }) :
    s.Turns c Q (s.setTimer c x) := .setChan h

/-- R116: a test may clear the latch it read. -/
theorem State.Turns.test (hQ : ∀ x o, Q x → Q (x.consumed o)) (h : Q (s.chan c)) (q : Condition) :
    s.Turns c Q (s.test c q).2 := by
  unfold State.test
  split
  · exact .refl h
  · split
    · simp only [State.consume_eq]
      exact .setChan (hQ _ _ h)
    · exact .refl h

/-! ### The ends of a run -/

theorem State.Turns.idleChannel (h : (s.chan c).Bounded line) :
    s.Turns c (Channel.WfUnder line) (s.idleChannel c) := by
  rw [State.idleChannel_eq]
  exact .setChan h.stopped

theorem State.Turns.endRun (h : (s.chan c).Bounded line) (cause : RunEndCause) :
    s.Turns c (Channel.WfUnder line) (s.endRun c cause) :=
  .after (s.panel_endReference c)
    ((State.Turns.idleChannel (by rwa [State.chan_endReference])).then (State.panel_notify _ _))

/-- R107: what a fault makes of a channel. -/
theorem State.faultChannel_chan (s : State) (c : Chan) (cause : FaultCause) (k : Option Nat) :
    ∃ f n, s.faultChannel c cause k = ((s.endReference c).setChan c ((s.chan c).faulted f)).notify n := by
  refine ⟨⟨cause, (s.engine c).index, k, (s.engine c).loops.length, (s.engine c).returns.length⟩,
    .runEnd c .fault (s.engine c).index
      (some ⟨cause, (s.engine c).index, k, (s.engine c).loops.length, (s.engine c).returns.length⟩), ?_⟩
  simp only [State.faultChannel, State.haltTimer, State.restOutput, State.setEngine, State.setTimer,
    State.setOutput, State.timer, State.output, State.engine, State.chan_setChan_self, State.setChan_setChan,
    State.chan_endReference, Channel.faulted]

theorem State.Turns.faultChannel (h : (s.chan c).Bounded line) (cause : FaultCause) (k : Option Nat) :
    s.Turns c (Channel.WfUnder line) (s.faultChannel c cause k) := by
  obtain ⟨f, n, hf⟩ := s.faultChannel_chan c cause k
  rw [hf]
  exact .after (s.panel_endReference c) (State.Turns.setChan (h.faulted f) |>.then rfl)

end

/-! ### The step kinds -/

/-- A step's outcome: the channel is ready for the next step, or the steps end with it well-formed. -/
def State.Outcome (s : State) (c : Chan) (line : Bool) (k : Nat) (r : State × Bool) : Prop :=
  s.Turns c (fun x => (r.2 = true → x.Ready line k) ∧ (r.2 = false → x.WfUnder line)) r.1

section
variable {s t : State} {k : Nat}

theorem State.Outcome.goesOn (h : s.Turns c (Channel.Ready line k) t) : s.Outcome c line k (t, true) :=
  h.mono fun _ hx => ⟨fun _ => hx, fun hr => by cases hr⟩

theorem State.Outcome.stops (h : s.Turns c (Channel.WfUnder line) t) : s.Outcome c line k (t, false) :=
  h.mono fun _ hx => ⟨fun hr => (by cases hr), fun _ => hx⟩

theorem State.Outcome.fault (h : (s.chan c).Ready line k) (cause : FaultCause) (n : Option Nat) :
    s.Outcome c line k (s.faultChannel c cause n, false) :=
  .stops (.faultChannel h.toBounded cause n)

theorem State.Turns.setLoops {l : List LoopRecord} (h : (s.chan c).Ready line k) (hl : l.length ≤ 6) :
    s.Turns c (Channel.Ready line k) (s.setLoops c l) :=
  .setEngine { h with loops := hl }

theorem State.Turns.goTo (h : (s.chan c).Ready line k) (n : Nat) :
    s.Turns c (Channel.Ready line k) (s.goTo c n) :=
  .setEngine { h with }

theorem State.Turns.testReady (h : (s.chan c).Ready line k) (q : Condition) :
    s.Turns c (Channel.Ready line k) (s.test c q).2 :=
  .test (fun _ o hx => hx.consumed o) h q

theorem State.Turns.loopTest (i : Nat) : ∀ (turns : Nat) {s : State}, (s.chan c).Ready line k →
    s.Turns c (Channel.Ready line k) (s.loopTest c i turns).2 := by
  intro turns
  induction turns with
  | zero => exact .refl
  | succ n ih =>
    intro s h
    have hpop : ∀ {t : State} {r : LoopRecord} {rest : List LoopRecord}, (s.engine c).loops = r :: rest →
        s.Turns c (Channel.Ready line k) t → s.Turns c (Channel.Ready line k) (t.setLoops c rest) := by
      intro t r rest hl ht
      have hlen : (s.chan c).engine.loops.length ≤ 6 := h.loops
      rw [show (s.chan c).engine.loops = _ from hl] at hlen
      exact ht.trans (.setLoops ht.own ((Nat.le_succ _).trans hlen))
    unfold State.loopTest
    split
    · exact .refl h
    · rename_i r rest hl
      split
      · split
        · split
          · have hp := hpop hl (.refl h)
            exact hp.trans (ih hp.own)
          · refine .setLoops h ?_
            have hlen : (s.chan c).engine.loops.length ≤ 6 := h.loops
            rwa [show (s.chan c).engine.loops = _ from hl] at hlen
        · rename_i q _
          simp only
          split
          · have hp := hpop hl (.testReady h q)
            exact hp.trans (ih hp.own)
          · exact .testReady h _
      · exact .refl h

/-- R86: a sequential advance. -/
theorem State.Outcome.advance (h : (s.chan c).Ready line k) : s.Outcome c line k (s.advance c) := by
  have hl := State.Turns.loopTest (s.engine c).index (s.engine c).loops.length h
  unfold State.advance
  simp only
  split
  · exact .goesOn (hl.trans (.goTo hl.own _))
  · exact .stops (hl.trans (.faultChannel hl.own.toBounded _ _))

/-- An advance after work that leaves the channel ready. -/
theorem State.Outcome.advanceAfter (h : s.Turns c (Channel.Ready line k) t) :
    s.Outcome c line k (t.advance c) := h.trans (State.Outcome.advance h.own)

theorem State.Outcome.playStep (h : (s.chan c).Ready line k) (hk : k ≤ Config.stepsPerEvent) (handle n : Nat)
    (a1 a2 b1 b2 : MarkerAction) (scale : Option Half) (hold : Option Condition) :
    s.Outcome c line k (s.playStep c handle n a1 a2 b1 b2 scale hold) := by
  unfold State.playStep
  split
  · exact .fault h _ _
  · exact .fault h _ _
  · exact .advance h
  · rename_i i _
    refine .stops ?_
    have hmark : s.Turns c (Channel.Ready line k) ((s.takeReference handle i).markOutput c a1 b1) :=
      .after (t := s.takeReference handle i) rfl (.setOutput { h with })
    refine hmark.trans (.setEngine (Channel.Live.wfUnder { hmark.own with } (hmark.own.steps.trans hk) fun _ => rfl))

theorem State.Outcome.loopStep (h : (s.chan c).Ready line k) (last : Nat) (ending : LoopEnd) :
    s.Outcome c line k (s.loopStep c last ending) := by
  unfold State.loopStep
  simp only
  split
  · exact .fault h _ _
  · split
    · exact .fault h _ _
    · split
      · exact .fault h _ _
      · rename_i hroom
        have hp := State.Turns.setLoops h (l := ⟨(s.engine c).index + 1, last, ending.termination⟩ :: (s.engine c).loops)
          (Nat.not_le.mp hroom)
        exact .goesOn (hp.trans (.goTo hp.own _))

theorem State.Outcome.branchStep (h : (s.chan c).Ready line k) (q : Condition) (target : Nat) (leave : Bool) :
    s.Outcome c line k (s.branchStep c q target leave) := by
  have ht := State.Turns.testReady h q
  unfold State.branchStep
  split
  · exact .fault h _ _
  · simp only
    split
    · refine .goesOn ?_
      split
      · have hp := ht.trans (.setLoops ht.own (l := ((s.test c q).2.engine c).loops.tail)
          (List.length_tail ▸ (Nat.sub_le _ _).trans ht.own.loops))
        exact hp.trans (.goTo hp.own _)
      · exact ht.trans (.goTo ht.own _)
    · exact .advanceAfter ht

theorem State.Outcome.callStep (h : (s.chan c).Ready line k) (target : Nat) :
    s.Outcome c line k (s.callStep c target) := by
  unfold State.callStep
  simp only
  split
  · exact .fault h _ _
  · split
    · exact .fault h _ _
    · rename_i hroom
      exact .goesOn (.setEngine { h with returns := Nat.not_le.mp hroom })

theorem State.Outcome.returnStep (h : (s.chan c).Ready line k) : s.Outcome c line k (s.returnStep c) := by
  unfold State.returnStep
  simp only
  split
  · exact .fault h _ _
  · rename_i r rest hr
    split
    · exact .fault h _ _
    · have hlen : (s.engine c).returns.length ≤ 4 := h.returns
      rw [hr] at hlen
      exact .goesOn (.setEngine { h with
        returns := (Nat.le_succ _).trans hlen
        loops := (List.drop_sublist _ _).length_le.trans h.loops })

theorem State.Outcome.waitStep (h : (s.chan c).Ready line k) (hk : k ≤ Config.stepsPerEvent) (q : Condition)
    (out : WaitOutput) : s.Outcome c line k (s.waitStep c q out) := by
  have ht := State.Turns.testReady h q
  unfold State.waitStep
  simp only
  split
  · exact .advanceAfter ht
  · refine .stops (ht.trans (.setEngine (Channel.Live.wfUnder { ht.own with } (ht.own.steps.trans hk) fun hs => ?_)))
    exact absurd (hs.symm.trans ht.own.stopPending) (by decide)

theorem State.Outcome.timerStep (h : (s.chan c).Ready line k) (tap : Fin 8) {preset : Half} (hp : preset ≠ 0) :
    s.Outcome c line k ((s.loadTimer c preset.toNat tap).advance c) :=
  .advanceAfter (.setTimer { h with
    count := Nat.le_of_lt_succ preset.isLt
    timer := fun _ => Nat.pos_of_ne_zero fun h0 => hp (BitVec.eq_of_toNat_eq h0) })

theorem State.Outcome.signalStep (h : (s.chan c).Ready line k) (flag : Option (Fin 8 × FlagAction)) (n : Bool)
    (u : Byte) : s.Outcome c line k (s.signalStep c flag n u) := by
  unfold State.signalStep
  simp only
  refine .advanceAfter (.of_panel ?_ h)
  have hwrite : ∀ f, (s.writeFlags f).panel = s.panel := s.panel_writeFlags
  split <;> split <;> simp only [State.panel_notify, hwrite]

/-- R75, R78: a step read from a well-formed store is well-formed. -/
theorem State.StoreWf.localStep (hs : s.StoreWf) (c : Chan) (n : Nat) : (s.localStep c n).Wf := by
  unfold State.localStep State.stepAt Sparse.get
  cases hf : Sparse.find s.steps (s.windowStart c + n) with
  | none => trivial
  | some x => exact hs.valid _ (Sparse.mem_of_find hf)

theorem State.Outcome.executeStep (hs : s.StoreWf) (h : (s.chan c).Ready line k)
    (hk : k ≤ Config.stepsPerEvent) : s.Outcome c line k (s.executeStep c) := by
  have hwf := hs.localStep c (s.engine c).index
  unfold State.executeStep
  split
  · exact .stops (.endRun h.toBounded _)
  · exact .playStep h hk _ _ _ _ _ _ _ _
  · exact .loopStep h _ _
  · exact .branchStep h _ _ _
  · exact .callStep h _
  · exact .returnStep h
  · exact .waitStep h hk _ _
  · rename_i preset tap hstep
    rw [hstep] at hwf
    exact .timerStep h tap hwf
  · exact .signalStep h _ _ _

theorem State.Turns.takeSteps : ∀ (left k : Nat) {s : State}, s.StoreWf → (s.chan c).Ready line k →
    k + left ≤ Config.stepsPerEvent → s.Turns c (Channel.WfUnder line) (s.takeSteps c left) := by
  intro left
  induction left with
  | zero => intro k s _ h hk; exact .refl (h.wfUnder hk)
  | succ n ih =>
    intro k s hs h hk
    have he := State.Outcome.executeStep hs h (by omega)
    unfold State.takeSteps
    simp only
    split
    · rename_i hgo
      have hready := he.own.1 hgo
      have hcount : s.Turns c (Channel.Ready line (k + 1)) ((s.executeStep c).1.countStep c) :=
        he.trans (.setEngine { hready with steps := Nat.succ_le_succ hready.steps })
      exact hcount.trans (ih (k + 1) (hs.of_store (s.store_executeStep c)) hcount.own (by omega))
    · rename_i hgo
      exact he.mono fun _ hx => hx.2 (by simpa using hgo)

end

end Sys2Proof.Machine
end

section
/-!
The events at one channel keep it well-formed: the events at which it takes steps, starts and releases, pause
reasons that change, passes and sample periods, the hold and operand changes, and the requests on it.
-/
namespace Sys2Proof.Machine

variable {c : Chan} {line : Bool} {s t : State}

/-! ### Events at which a channel takes steps -/

/-- R85: a channel begins an event. -/
theorem State.Turns.beginEvent (h : (s.chan c).Live line) (hs : (s.chan c).engine.stopPending = false) :
    s.Turns c (Channel.Ready line 0) (s.beginEvent c) :=
  .setEngine { h with activity := rfl, stopPending := hs, steps := Nat.le_refl 0 }

theorem State.Turns.stepEvent (hw : s.StoreWf) (h : (s.chan c).Live line)
    (hs : (s.chan c).engine.stopPending = false) : s.Turns c (Channel.WfUnder line) (s.stepEvent c) := by
  have hb := State.Turns.beginEvent h hs
  exact hb.trans (.takeSteps _ 0 (hw.of_store rfl) hb.own (by simp))

theorem State.Turns.advanceEvent (hw : s.StoreWf) (h : (s.chan c).Live line)
    (hs : (s.chan c).engine.stopPending = false) : s.Turns c (Channel.WfUnder line) (s.advanceEvent c) := by
  have ha := State.Outcome.advanceAfter (State.Turns.beginEvent h hs)
  unfold State.advanceEvent
  simp only
  split
  · rename_i hgo
    refine ha.trans (.takeSteps _ 0 (hw.of_store ?_) (ha.own.1 hgo) (by simp))
    rw [State.store_advance, State.store_beginEvent]
  · rename_i hgo
    exact ha.mono fun _ hx => hx.2 (by simpa using hgo)

/-! ### Starts and releases -/

/-- R84: an ARMED channel starts. -/
theorem State.Turns.startChannel (hw : s.StoreWf) (h : (s.chan c).WfUnder line) (hr : (s.engine c).run = .armed) :
    s.Turns c (Channel.WfUnder line) (s.startChannel c) := by
  have hr' : (s.chan c).engine.run = .armed := hr
  have hfault := h.fault_none (by simp [hr'])
  have hstop := h.stopPending_false (by
    rw [h.1.engine.activity (by simp [hr', RunState.inProgram])]
    rfl)
  have htimer := h.timer_stopped (by simp [hr', RunState.inProgram])
  unfold State.startChannel
  simp only
  split
  · rename_i hp
    rw [State.beginEvent, State.setEngine_setEngine, State.engine_setEngine_self]
    exact .setEngine
      { left :=
          { h.1 with
            engine :=
              { h.1.engine with
                steps := Nat.zero_le _
                start := rfl
                fault := by simp [State.engine, hfault]
                activity := fun _ => rfl
                held := fun _ => rfl
                request := fun _ => rfl
                stopPending := fun hs => absurd (hs.symm.trans hstop) (by decide)
                running := fun hrun => by cases hrun
                paused := fun _ => by simpa using hp
                idle := fun hrun => by cases hrun }
            timer := ⟨h.1.timer.count, fun ht => absurd (ht.symm.trans htimer) (by decide)⟩ }
        right := h.2 }
  · rename_i hp
    obtain ⟨hrequest, hline⟩ : (s.engine c).requestPause = false ∧ (s.engine c).linePause = false := by
      simpa using hp
    have hgo : s.Turns c (fun x => x.Live line ∧ x.engine.stopPending = false)
        (s.setEngine c { s.engine c with run := .running, start := none }) :=
      .setEngine ⟨{ h.bounded with
        run := rfl
        request := hrequest
        free := hline
        start := rfl
        fault := hfault
        timer := fun ht => absurd (ht.symm.trans htimer) (by decide) }, hstop⟩
    exact hgo.trans (.stepEvent (hw.of_store rfl) hgo.own.1 hgo.own.2)

theorem State.Turns.testWf (h : (s.chan c).WfUnder line) (q : Condition) :
    s.Turns c (Channel.WfUnder line) (s.test c q).2 :=
  .test (fun _ o hx => hx.consumed o) h q

theorem State.Turns.startTest (hw : s.StoreWf) (h : (s.chan c).WfUnder line) :
    s.Turns c (Channel.WfUnder line) (s.startTest c) := by
  unfold State.startTest
  split
  · rename_i q hrun _ _
    have ht := State.Turns.testWf h q
    simp only
    split
    · exact ht.trans (.startChannel (hw.of_store (s.store_test c q)) ht.own ((s.run_test q).trans hrun))
    · exact ht
  · exact .refl h

theorem State.Turns.releaseTest (hw : s.StoreWf) (h : (s.chan c).WfUnder line) :
    s.Turns c (Channel.WfUnder line) (s.releaseTest c) := by
  unfold State.releaseTest
  split
  · rename_i w hrun _ hact
    have hlive : (s.chan c).Live line ∧ (s.chan c).engine.stopPending = false :=
      ⟨h.live hrun, h.stopPending_false (by rw [show (s.chan c).engine.activity = _ from hact]; rfl)⟩
    have ht : s.Turns c (fun x => (x.Live line ∧ x.engine.stopPending = false) ∧ x.WfUnder line)
        (s.test c w.release).2 :=
      .test (fun x o hx => ⟨⟨hx.1.1.consumed o, by cases o <;> exact hx.1.2⟩, hx.2.consumed o⟩) ⟨hlive, h⟩ _
    simp only
    split
    · exact ht.trans (.advanceEvent (hw.of_store (s.store_test c _)) ht.own.1.1 ht.own.1.2)
    · exact ht.mono fun _ hx => hx.2
  · exact .refl h

theorem State.Turns.goOn (hw : s.StoreWf) (h : (s.chan c).WfUnder line) :
    s.Turns c (Channel.WfUnder line) (s.goOn c) := by
  unfold State.goOn
  split
  · exact .releaseTest hw h
  · rename_i hrun _ hact
    exact .stepEvent hw (h.live hrun) (h.stopPending_false (by
      rw [show (s.chan c).engine.activity = _ from hact]; rfl))
  · exact .refl h

/-! ### Pause reasons -/

/-- R106: the channel takes the run state that its pause reasons call for, and one that is let go goes on. -/
theorem State.pauseChanged_eq (s : State) (c : Chan) :
    s.pauseChanged c =
      if (s.engine c).run = .paused ∧ ((s.engine c).requestPause || (s.engine c).linePause) = false then
        (s.setEngine c (s.engine c).settled).goOn c
      else s.setEngine c (s.engine c).settled := by
  have hself : s.setEngine c (s.engine c) = s := s.setChan_chan c
  cases hp : (s.engine c).requestPause || (s.engine c).linePause <;> cases hr : (s.engine c).run <;>
    simp [State.pauseChanged, Engine.settled, hp, hr] <;> rw [← hr, hself]

theorem State.Turns.pauseChanged (hw : s.StoreWf)
    (h : ({ s.chan c with engine := (s.engine c).settled } : Channel).WfUnder line) :
    s.Turns c (Channel.WfUnder line) (s.pauseChanged c) := by
  have hset : s.Turns c (Channel.WfUnder line) (s.setEngine c (s.engine c).settled) := .setEngine h
  rw [State.pauseChanged_eq]
  split
  · exact hset.trans (.goOn (hw.of_store rfl) hset.own)
  · exact hset

/-- R105: a channel follows the PAUSE line, whatever its LINE reason was. -/
theorem State.Turns.followPauseLine (hw : s.StoreWf) (h : (s.chan c).Wf) :
    s.Turns c (Channel.WfUnder s.pauseLine) (s.followPauseLine c) := by
  have hset : s.Turns c
      (fun x => ({ x with engine := x.engine.settled } : Channel).WfUnder s.pauseLine)
      (s.setEngine c { s.engine c with linePause := s.pauseLine && (s.engine c).pauseRouting }) :=
    .setEngine ⟨h.settled _ _ h.engine.request, rfl⟩
  exact hset.trans (.pauseChanged (hw.of_store rfl) hset.own)

theorem State.Turns.pauseChannel (hw : s.StoreWf) (h : (s.chan c).WfUnder line) :
    s.Turns c (Channel.WfUnder line) (s.pauseChannel c) := by
  unfold State.pauseChannel
  split
  · rename_i hactive
    have hset : s.Turns c (fun x => ({ x with engine := x.engine.settled } : Channel).WfUnder line)
        (s.setEngine c { s.engine c with requestPause := true }) :=
      .setEngine ⟨h.1.settled true _ fun _ => hactive, h.2⟩
    exact hset.trans (.pauseChanged (hw.of_store rfl) hset.own)
  · exact .refl h

theorem State.Turns.resumeChannel (hw : s.StoreWf) (h : (s.chan c).WfUnder line) :
    s.Turns c (Channel.WfUnder line) (s.resumeChannel c) := by
  have hset : s.Turns c (fun x => ({ x with engine := x.engine.settled } : Channel).WfUnder line)
      (s.setEngine c { s.engine c with requestPause := false }) :=
    .setEngine ⟨h.1.settled false _ fun hr => (by cases hr), h.2⟩
  exact hset.trans (.pauseChanged (hw.of_store rfl) hset.own)

/-! ### Passes -/

/-- A channel in a PLAY step between two activities of it. -/
structure Channel.Playing (line : Bool) (x : Channel) : Prop extends x.Live line where
  steps : x.engine.stepsAtEvent ≤ Config.stepsPerEvent

theorem Channel.WfUnder.playing {x : Channel} (h : x.WfUnder line) (hr : x.engine.run = .running) :
    x.Playing line := { h.live hr with steps := h.1.engine.steps }

theorem State.Turns.setActivity {p : PlayRecord} {a : Activity} (h : (s.chan c).Playing line)
    (ha : a.playRecord? = some p) : s.Turns c (Channel.WfUnder line) (s.setActivity c a) :=
  .setEngine (Channel.Live.wfUnder { h with } h.steps fun _ => by simp [ha])

theorem State.Turns.completePlay (hw : s.StoreWf) (h : (s.chan c).Playing line) (p : PlayRecord) :
    s.Turns c (Channel.WfUnder line) (s.completePlay c p) := by
  have hmark : s.Turns c (Channel.Live line) ((s.markOutput c p.aEnd p.bEnd).release p.serial) :=
    (State.Turns.setOutput { h.toLive with }).then (State.panel_release _ _)
  have hbegin : s.Turns c (Channel.Live line)
      (((s.markOutput c p.aEnd p.bEnd).release p.serial).beginEvent c) :=
    hmark.trans (.setEngine { hmark.own with })
  unfold State.completePlay
  simp only
  split
  · exact hbegin.trans (.endRun hbegin.own.toBounded _)
  · rename_i hs
    exact hbegin.trans (.advanceEvent (hw.of_store (by simp)) hbegin.own (eq_false_of_ne_true hs))

/-- R149, R150: a tap at the channel's timer. -/
theorem State.panel_expireTimer (s : State) (c : Chan) : (s.expireTimer c).panel =
    (s.setTimer c { s.timer c with running := false, count := 0, expired := true }).panel := by
  unfold State.expireTimer
  simp only
  split
  · split
    · rw [State.panel_hand]; split <;> rfl
    · split <;> rfl
  · split <;> rfl

theorem State.Turns.tapTimer {Q : Channel → Prop} (h : Q (s.chan c))
    (hstop : Q { s.chan c with timer := { s.timer c with running := false, count := 0, expired := true } })
    (hlower : 1 < (s.timer c).count → Q { s.chan c with timer := { s.timer c with count := (s.timer c).count - 1 } })
    (tap : Fin 8) : s.Turns c Q (s.tapTimer c tap) := by
  unfold State.tapTimer
  simp only
  split
  · split
    · exact (State.Turns.setTimer hstop).then (s.panel_expireTimer c)
    · rename_i hcount
      exact .setTimer (hlower (Nat.not_le.mp hcount))
  · exact .refl h

theorem State.Turns.holdTest (hw : s.StoreWf) (h : (s.chan c).Playing line) (p : PlayRecord) :
    s.Turns c (Channel.WfUnder line) (s.holdTest c p) := by
  unfold State.holdTest
  split
  · exact .completePlay hw h p
  · rename_i q _
    have ht : s.Turns c (Channel.Playing line) (s.test c q).2 :=
      .test (fun x o hx => { hx.toLive.consumed o with steps := by cases o <;> exact hx.steps }) h q
    simp only
    split
    · exact ht.trans (.completePlay (hw.of_store (s.store_test c q)) ht.own p)
    · exact ht.trans (.setActivity ht.own rfl)

theorem State.Turns.passComplete (hw : s.StoreWf) (h : (s.chan c).Playing line) (p : PlayRecord) (counted : Bool) :
    s.Turns c (Channel.WfUnder line) (s.passComplete c p counted) := by
  have ht : s.Turns c (Channel.Playing line) (s.tapTimer c 7) :=
    .tapTimer h { h with count := Nat.zero_le _, timer := fun ht => by cases ht }
      (fun hc => { h with
        count := (Nat.sub_le _ _).trans h.count
        timer := fun _ => Nat.sub_pos_of_lt hc }) 7
  unfold State.passComplete
  simp only
  split
  · exact ht.trans (.setActivity ht.own rfl)
  · exact ht.trans (.holdTest (hw.of_store (s.store_tapTimer c 7)) ht.own p)

theorem State.Turns.playPeriod (hw : s.StoreWf) (h : (s.chan c).Playing line) (p : PlayRecord) (counted : Bool) :
    s.Turns c (Channel.WfUnder line) (s.playPeriod c p counted) := by
  have hd : s.Turns c (Channel.Playing line)
      (s.deliverSample c p.scale (s.sampleAt p.firstPage p.position)) := by
    have ho : s.Turns c (Channel.Playing line) (s.setOutput c
        ((s.output c).deliver p.scale (s.sampleAt p.firstPage p.position)).driveLines) :=
      .setOutput { h with }
    refine ho.trans (.setEngine ?_)
    rw [State.chan_setOutput_self]
    exact { h with }
  unfold State.playPeriod
  simp only
  split
  · cases counted
    · exact hd.trans (.setActivity hd.own rfl)
    · exact hd.trans (.setActivity hd.own rfl)
  · have hw' : (s.deliverSample c p.scale (s.sampleAt p.firstPage p.position)).StoreWf := hw.of_store rfl
    exact hd.trans (.passComplete hw' hd.own p counted)

/-! ### Sample periods -/

/-- Other fields of the output stage than its settings do not matter. -/
theorem Channel.WfUnder.output {x : Channel} (h : x.WfUnder line) {o : Output} (hf : o.inForce.Wf)
    (hp : ∀ g, o.pending = some g → g.Wf) : ({ x with output := o } : Channel).WfUnder line :=
  ⟨{ h.1 with inForce := hf, pending := hp }, h.2⟩

theorem State.Turns.carryRest (h : (s.chan c).WfUnder line) :
    s.Turns c (Channel.WfUnder line) (s.carryRest c) :=
  .setOutput (h.output h.1.inForce h.1.pending)

/-- R163: a channel outside IDLE may carry a code. -/
theorem State.Turns.carryCode (h : (s.chan c).WfUnder line) (hr : (s.engine c).run ≠ .idle) (code : Half) :
    s.Turns c (Channel.WfUnder line) (s.carryCode c code) := by
  have ho : s.Turns c (Channel.WfUnder line) (s.setOutput c ((s.output c).carry code).driveLines) :=
    .setOutput (h.output h.1.inForce h.1.pending)
  refine ho.trans (.setEngine ?_)
  rw [State.chan_setOutput_self]
  have hx := h.output (o := ((s.output c).carry code).driveLines) h.1.inForce h.1.pending
  exact ⟨{ hx.1 with engine := { hx.1.engine with idle := fun hrun => absurd hrun hr } }, hx.2⟩

theorem State.Turns.waitPeriod (h : (s.chan c).WfUnder line) (hr : (s.engine c).run ≠ .idle) (w : WaitRecord) :
    s.Turns c (Channel.WfUnder line) (s.waitPeriod c w) := by
  unfold State.waitPeriod
  split
  · exact .carryCode h hr _
  · exact .carryRest h
  · exact .carryRest h

theorem State.Turns.frozenPeriod (h : (s.chan c).WfUnder line) (hr : (s.engine c).run = .paused) :
    s.Turns c (Channel.WfUnder line) (s.frozenPeriod c) := by
  have hidle : (s.engine c).run ≠ .idle := by simp [hr]
  have hplay : s.Turns c (Channel.WfUnder line)
      (match (s.output c).portKind with
        | .rest => s.carryRest c
        | .played | .carried => s.carryCode c (s.output c).port) := by
    split
    · exact .carryRest h
    all_goals exact .carryCode h hidle _
  unfold State.frozenPeriod
  split
  · exact .carryRest h
  · exact .waitPeriod h hidle _
  all_goals exact hplay

theorem State.Turns.samplePeriod (hw : s.StoreWf) (h : (s.chan c).WfUnder line) :
    s.Turns c (Channel.WfUnder line) (s.samplePeriod c) := by
  have hs : s.Turns c (Channel.WfUnder line) (s.setOutput c (s.output c).settle) := by
    refine .setOutput ?_
    unfold Output.settle
    split
    · exact h
    · rename_i g hg
      exact h.output (h.1.pending g hg) fun _ hn => by cases hn
  unfold State.samplePeriod
  simp only
  have hw' : (s.setOutput c (s.output c).settle).StoreWf := hw.of_store rfl
  generalize s.setOutput c (s.output c).settle = u at hs hw'
  refine hs.trans ?_
  have hu := hs.own
  split
  · exact .carryRest hu
  · exact .carryRest hu
  · exact .carryRest hu
  · rename_i hr
    exact .frozenPeriod hu hr
  · rename_i hrun
    split
    · rename_i hact
      have hrest : u.Turns c (fun x => x.Live line ∧ x.engine.stopPending = false) (u.carryRest c) :=
        .setOutput ⟨{ hu.live hrun with }, hu.stopPending_false (by
          rw [show (u.chan c).engine.activity = _ from hact]; rfl)⟩
      exact hrest.trans (.stepEvent (hw'.of_store rfl) hrest.own.1 hrest.own.2)
    · exact .waitPeriod hu (by simp [hrun]) _
    · exact .playPeriod hw' (hu.playing hrun) _ _
    · exact .playPeriod hw' (hu.playing hrun) _ _

theorem State.Turns.periodEvent (hw : s.StoreWf) (h : (s.chan c).WfUnder line) :
    s.Turns c (Channel.WfUnder line) (s.periodEvent c) := by
  have hr : s.Turns c (Channel.WfUnder line)
      ((s.taken (.samplePeriod c)).setRate c { (s.taken (.samplePeriod c)).rate c with phase := 0 }) :=
    .after (s.panel_taken _) (.setChan ⟨{ h.1 with
      rate := ⟨h.1.rate.1, h.1.rate.2.1, h.1.rate.1⟩ }, h.2⟩)
  exact hr.trans (.samplePeriod (hw.of_store rfl) hr.own)

theorem State.Turns.passPeriods : ∀ (n : Nat) {s : State}, s.StoreWf → (s.chan c).WfUnder line →
    s.Turns c (Channel.WfUnder line) (s.passPeriods c n) := by
  intro n
  induction n with
  | zero => intro s _ h; exact .refl h
  | succ n ih =>
    intro s hw h
    unfold State.passPeriods
    split
    · simp only
      split
      · exact .after (s.panel_taken _) (ih (hw.of_store rfl) h)
      · have hp := (State.Turns.periodEvent hw h).then (State.panel_transmit _)
        exact hp.trans (ih (hw.of_store (by simp)) hp.own)
    · exact .refl h

/-! ### The hold and operand changes -/

/-- R81: a channel is held while it is active, or free. -/
theorem Channel.WfUnder.setHeld {x : Channel} (h : x.WfUnder line) {held : Bool}
    (ha : held = true → x.engine.run.active = true) :
    ({ x with engine := { x.engine with held := held } } : Channel).WfUnder line :=
  ⟨{ h.1 with engine := { h.1.engine with held := ha } }, h.2⟩

theorem State.Turns.dropHold (hw : s.StoreWf) (h : (s.chan c).WfUnder line) :
    s.Turns c (Channel.WfUnder line) (s.dropHold c) := by
  unfold State.dropHold
  simp only
  split
  · have hfree : s.Turns c (Channel.WfUnder line) (s.setEngine c { s.engine c with held := false }) :=
      .setEngine (h.setHeld fun hh => by cases hh)
    have hw' : (s.setEngine c { s.engine c with held := false }).StoreWf := hw.of_store rfl
    generalize s.setEngine c { s.engine c with held := false } = u at hfree hw'
    have hpass := (hfree.trans (.passPeriods (s.periodsBefore c (.holdDrop (.channel c))) hw' hfree.own)).then
      (State.panel_taken _ (.holdDrop (.channel c)))
    have hw'' : ((u.passPeriods c (s.periodsBefore c (.holdDrop (.channel c)))).taken
        (.holdDrop (.channel c))).StoreWf := hw'.of_store (by simp)
    split
    · exact hpass.trans (.startTest hw'' hpass.own)
    · exact hpass.trans (.goOn hw'' hpass.own)
    all_goals exact hpass
  · exact .of_panel (s.panel_taken _) h

theorem State.Turns.changeEvent (hw : s.StoreWf) (h : (s.chan c).WfUnder line) :
    s.Turns c (Channel.WfUnder line) (s.changeEvent c) := by
  have hpass : s.Turns c (Channel.WfUnder line) ((if (s.engine c).retests then
      s.passPeriods c (s.periodsBefore c (.operandChange c)) else s).taken (.operandChange c)) := by
    refine State.Turns.then ?_ (State.panel_taken _ _)
    split
    · exact .passPeriods _ hw h
    · exact .refl h
  have hw' : ((if (s.engine c).retests then
      s.passPeriods c (s.periodsBefore c (.operandChange c)) else s).taken (.operandChange c)).StoreWf := by
    refine hw.of_store ?_
    rw [State.store_taken]
    split <;> simp
  unfold State.changeEvent
  simp only
  split
  · exact hpass.trans (.startTest hw' hpass.own)
  · exact hpass.trans (.releaseTest hw' hpass.own)
  all_goals exact hpass

theorem State.Turns.raiseHold (h : (s.chan c).WfUnder line) :
    s.Turns c (Channel.WfUnder line) (s.raiseHold c) := by
  unfold State.raiseHold
  split
  · rename_i hh
    exact .setEngine (h.setHeld fun _ => (Bool.and_eq_true_iff.mp hh).2)
  · exact .refl h

/-! ### Requests -/

theorem State.Turns.stopNow (h : (s.chan c).WfUnder line) :
    s.Turns c (Channel.WfUnder line) (s.stopNow c) := by
  unfold State.stopNow
  split
  · exact .endRun h.bounded _
  · exact .refl h

theorem State.Turns.stopAfterPlay (h : (s.chan c).WfUnder line) :
    s.Turns c (Channel.WfUnder line) (s.stopAfterPlay c) := by
  have hmark : ∀ {p : PlayRecord}, (s.engine c).activity.playRecord? = some p →
      s.Turns c (Channel.WfUnder line) (s.setEngine c { s.engine c with stopPending := true }) := fun hp =>
    .setEngine ⟨{ h.1 with engine := { h.1.engine with stopPending := fun _ => by simp [hp] } }, h.2⟩
  unfold State.stopAfterPlay
  split
  case h_5 => exact .stopNow h
  all_goals
    rename_i hact
    exact hmark (by rw [hact]; rfl)

theorem State.Turns.resetChannel (h : (s.chan c).WfUnder line) :
    s.Turns c (Channel.WfUnder line) (s.resetChannel c) := by
  have hi : s.Turns c (Channel.WfUnder line) ((s.endReference c).idleChannel c) :=
    .after (s.panel_endReference c) (.idleChannel (by rw [State.chan_endReference]; exact h.bounded))
  exact hi.trans (.setTimer ⟨{ hi.own.1 with timer := ⟨Nat.zero_le _, fun ht => by cases ht⟩ }, hi.own.2⟩)

end Sys2Proof.Machine
end

section
/-!
Every request, every event and every step keeps the channels well-formed, and the statement about it.
-/
namespace Sys2Proof.Machine

/-! ### All channels at once -/

section
variable {s t : State} {c : Chan}

theorem State.ChannelsWf.of_panel (hs : s.ChannelsWf) (h : t.panel = s.panel) : t.ChannelsWf := by
  intro c
  rw [State.chan_of_panel h c, show t.pauseLine = s.pauseLine from congrArg Prod.snd h]
  exact hs c

/-- Work at one channel that leaves it well-formed. -/
theorem State.ChannelsWf.turns (hs : s.ChannelsWf) (h : s.Turns c (Channel.WfUnder s.pauseLine) t) :
    t.ChannelsWf := by
  intro d
  rw [h.line]
  by_cases hd : c = d
  · exact hd ▸ h.own
  · rw [h.others d hd]
    exact hs d

/-- Work at channels in turn, none of which writes the Step Store. -/
theorem State.ChannelsWf.foldl {α : Type} (f : State → α → State) (hstore : ∀ u a, (f u a).store = u.store)
    (hf : ∀ (u : State) a, u.StoreWf → u.ChannelsWf → (f u a).ChannelsWf) :
    ∀ (l : List α) {s : State}, s.StoreWf → s.ChannelsWf → (l.foldl f s).ChannelsWf := by
  intro l
  induction l with
  | nil => exact fun _ hs => hs
  | cons a l ih => exact fun hw hs => ih (hw.of_store (hstore _ a)) (hf _ a hw hs)

end

/-! ### Signals and the PAUSE line -/

section
variable {s : State}

theorem State.ChannelsWf.raiseEvent (hs : s.ChannelsWf) (target : HoldTarget) :
    (s.raiseEvent target).ChannelsWf := by
  have ht : (s.taken (.holdRaise target)).ChannelsWf := hs.of_panel (s.panel_taken _)
  unfold State.raiseEvent
  simp only
  split
  · exact ht.turns (.raiseHold (ht _))
  all_goals exact ht

theorem State.ChannelsWf.dropEvent (hs : s.ChannelsWf) (hw : s.StoreWf) (target : HoldTarget) :
    (s.dropEvent target).ChannelsWf := by
  unfold State.dropEvent
  split
  · exact hs.turns (.dropHold hw (hs _))
  all_goals exact hs.of_panel (s.panel_taken _)

theorem State.ChannelsWf.changeEvent (hs : s.ChannelsWf) (hw : s.StoreWf) (c : Chan) :
    (s.changeEvent c).ChannelsWf := hs.turns (.changeEvent hw (hs c))

theorem State.ChannelsWf.signalEvent (hs : s.ChannelsWf) (hw : s.StoreWf) (e : Instr) :
    (s.signalEvent e).ChannelsWf := by
  unfold State.signalEvent
  split
  · exact hs.changeEvent hw _
  · exact hs.raiseEvent _
  · exact hs.dropEvent hw _
  · exact hs

theorem State.ChannelsWf.catchUp (hs : s.ChannelsWf) (hw : s.StoreWf) (c : Chan) (e : Instr) :
    (s.catchUp c e).ChannelsWf :=
  .foldl (fun u e => (u.signalEvent e).transmit) (fun u e => by simp)
    (fun _ e hu hc => (hc.signalEvent hu e).of_panel (State.panel_transmit _)) _ hw hs

theorem State.ChannelsWf.catchUpAt (hs : s.ChannelsWf) (hw : s.StoreWf) (target : HoldTarget) (e : Instr) :
    (s.catchUpAt target e).ChannelsWf := by
  unfold State.catchUpAt
  split
  · exact hs.catchUp hw _ e
  all_goals exact hs

/-- R105: the engines follow the PAUSE line in turn, each from any LINE reason. -/
theorem State.ChannelsWf.followPauseLine : ∀ (l : List Chan) {s : State}, s.StoreWf → (∀ c, (s.chan c).Wf) →
    (∀ c, c ∉ l → (s.chan c).WfUnder s.pauseLine) → (l.foldl (fun u c => u.followPauseLine c) s).ChannelsWf := by
  intro l
  induction l with
  | nil => exact fun _ _ hs c => hs c (List.not_mem_nil)
  | cons c l ih =>
    intro s hw hwf hs
    have hc := State.Turns.followPauseLine hw (hwf c)
    refine ih (hw.of_store (s.store_followPauseLine c)) (fun d => ?_) fun d hd => ?_
    · by_cases hcd : c = d
      · exact hcd ▸ hc.own.1
      · rw [hc.others d hcd]
        exact hwf d
    · rw [hc.line]
      by_cases hcd : c = d
      · exact hcd ▸ hc.own
      · rw [hc.others d hcd]
        exact hs d (by simp [hd, Ne.symm hcd])

/-! ### Triggers, taps and the tick -/

theorem State.ChannelsWf.setLatches (hs : s.ChannelsWf) (c : Chan) (l : Latches) :
    (s.setLatches c l).ChannelsWf := hs.turns (.setChan ⟨{ (hs c).1 with }, (hs c).2⟩)

theorem State.ChannelsWf.setRate (hs : s.ChannelsWf) (c : Chan) {r : Rate} (hr : r.Wf) :
    (s.setRate c r).ChannelsWf := hs.turns (.setChan ⟨{ (hs c).1 with rate := hr }, (hs c).2⟩)

theorem State.ChannelsWf.tapTimer (hs : s.ChannelsWf) (c : Chan) (tap : Fin 8) :
    (s.tapTimer c tap).ChannelsWf := by
  obtain ⟨hx, hl⟩ := hs c
  refine hs.turns (.tapTimer (hs c) ⟨{ hx with timer := ⟨Nat.zero_le _, fun h => by cases h⟩ }, hl⟩
    (fun hcount => ⟨{ hx with timer := ⟨(Nat.sub_le _ _).trans hx.timer.count, fun h => ?_⟩ }, hl⟩) tap)
  exact ⟨Nat.sub_pos_of_lt hcount, (hx.timer.running h).2⟩

theorem State.ChannelsWf.eachChannel {f : Chan → State → State} (hf : ∀ c u, u.ChannelsWf → (f c u).ChannelsWf)
    (hs : s.ChannelsWf) : (s.eachChannel f).ChannelsWf := by
  unfold State.eachChannel
  generalize allChannels = l
  induction l generalizing s with
  | nil => exact hs
  | cons c l ih => exact ih (hf c s hs)

theorem State.ChannelsWf.triggerArrival (hs : s.ChannelsWf) (n : Fin 4) : (s.triggerArrival n).ChannelsWf := by
  unfold State.triggerArrival
  refine State.ChannelsWf.of_panel ?_ (State.panel_handChanges _ _)
  refine hs.eachChannel fun c u hu => ?_
  split
  · exact hu.setLatches c _
  · exact hu

theorem State.ChannelsWf.softwareTrigger (hs : s.ChannelsWf) (mask : Byte) :
    (s.softwareTrigger mask).ChannelsWf := by
  unfold State.softwareTrigger
  refine State.ChannelsWf.of_panel ?_ (State.panel_handChanges _ _)
  refine hs.eachChannel fun c u hu => ?_
  split
  · exact hu.setLatches c _
  · exact hu

theorem State.ChannelsWf.changeTriggerLine (hs : s.ChannelsWf) (n : Fin 4) (high : Bool) :
    (s.changeTriggerLine n high).ChannelsWf := by
  have hline : ∀ l, ({ s with lines := l } : State).ChannelsWf := fun l => hs.of_panel rfl
  unfold State.changeTriggerLine
  simp only
  split
  · exact (hline _).triggerArrival n
  · exact hline _

theorem State.ChannelsWf.tapEvent (hs : s.ChannelsWf) (k : Fin 7) : (s.tapEvent k).ChannelsWf := by
  have htap : ∀ u : State, u.ChannelsWf → (u.tap k).ChannelsWf := fun u hu => by
    have htimers : (u.eachChannel fun c s => s.tapTimer c (tapOf k)).ChannelsWf :=
      hu.eachChannel fun c v hv => hv.tapTimer c _
    unfold State.tap
    simp only
    split
    · exact htimers.of_panel (State.panel_walkTick _)
    · exact htimers
  unfold State.tapEvent
  split
  · split
    · exact htap _ (hs.of_panel (s.panel_taken _))
    · exact htap _ (hs.of_panel rfl)
  · exact hs

theorem State.ChannelsWf.tickPhase (hs : s.ChannelsWf) (c : Chan) : (s.tickPhase c).ChannelsWf := by
  obtain ⟨hlow, hhigh, -⟩ : (s.rate c).Wf := (hs c).1.rate
  unfold State.tickPhase
  simp only
  split
  · rename_i hlt
    exact hs.setRate c ⟨hlow, hhigh, hlt⟩
  · exact (hs.setRate c (r := ⟨(s.rate c).decimation, 0⟩) ⟨hlow, hhigh, hlow⟩).of_panel (State.panel_hand _ _)

theorem State.ChannelsWf.tick (hs : s.ChannelsWf) : s.tick.ChannelsWf := by
  have htimeout : s.tickTimeout.ChannelsWf := hs.of_panel s.panel_tickTimeout
  unfold State.tick
  split
  · exact hs
  · simp only
    split
    · exact htimeout
    · have hphases : (s.tickTimeout.eachChannel fun c s => s.tickPhase c).ChannelsWf :=
        htimeout.eachChannel fun c u hu => hu.tickPhase c
      exact hphases.of_panel (State.panel_tickChain _)

/-! ### Requests on the channels -/

/-- R83: an IDLE channel that a RUN prepares. -/
theorem Channel.WfUnder.prepared {line : Bool} {x : Channel} (h : x.WfUnder line) (hr : x.engine.run = .idle)
    (hold : Bool) (start : Nat) (q : Condition) : (x.prepared hold start q).WfUnder line where
  left :=
    { h.1 with
      engine :=
        { h.1.engine with
          loops := Nat.zero_le _
          returns := Nat.zero_le _
          steps := Nat.zero_le _
          start := rfl
          fault := by simp [Channel.prepared, h.fault_none (by simp [hr])]
          activity := fun _ => rfl
          held := fun _ => rfl
          request := fun _ => rfl
          stopPending := fun hs => by cases hs
          running := fun hs => by cases hs
          paused := fun hs => by cases hs
          idle := fun hs => by cases hs }
      timer := ⟨h.1.timer.count, fun ht =>
        absurd (ht.symm.trans (h.timer_stopped (by simp [hr, RunState.inProgram]))) (by decide)⟩
      rate := ⟨h.1.rate.1, h.1.rate.2.1, h.1.rate.1⟩ }
  right := h.2

theorem State.ChannelsWf.runChannels (hs : s.ChannelsWf) (hw : s.StoreWf) {mask : Byte}
    (hidle : ∀ c : Chan, mask.getLsbD c.val = true → (s.engine c).run = .idle) (start : Nat) (q : Condition) :
    (s.runChannels mask start q).ChannelsWf := by
  obtain ⟨hchan, hrest⟩ := s.prepared_eq mask start q
  unfold State.runChannels
  simp only
  refine .foldl (fun u c => u.startTest c) (fun u c => by simp)
    (fun u c hu hc => hc.turns (.startTest hu (hc c))) _ (hw.of_store (by rw [hrest]; rfl)) fun c => ?_
  rw [hchan c, show State.pauseLine _ = s.pauseLine by rw [hrest]]
  split
  · rename_i hc
    exact Channel.WfUnder.prepared (hs c) (hidle c ((mem_maskChannels mask c).mp hc)) _ _ _
  · exact hs c

theorem State.ChannelsWf.takeRun (hs : s.ChannelsWf) (hw : s.StoreWf) (m : Byte) (start : Half) (k n : Byte) :
    (takeRun m start k n s).1.ChannelsWf := by
  unfold Machine.takeRun
  split
  · split
    · exact hs
    · simp only
      split
      · exact hs
      · split
        · exact hs
        · split
          · exact hs
          · rename_i hidle _ _
            refine hs.runChannels hw (fun c hc => ?_) _ _
            have hnone := (maskOf_eq_zero _).mp (not_not.mp hidle) c
            simpa [hc] using hnone
  · exact hs

theorem State.ChannelsWf.takeStop (hs : s.ChannelsWf) (hw : s.StoreWf) (m o : Byte) :
    (takeStop m o s).1.ChannelsWf := by
  unfold Machine.takeStop
  split
  · exact hs
  · rename_i after _
    split
    · exact hs
    · refine .foldl (fun u c => if after then u.stopAfterPlay c else u.stopNow c) (fun u c => ?_)
        (fun u c _ hc => ?_) _ hw hs
      · split <;> simp
      · split
        · exact hc.turns (.stopAfterPlay (hc c))
        · exact hc.turns (.stopNow (hc c))

theorem State.ChannelsWf.takePause (hs : s.ChannelsWf) (hw : s.StoreWf) (m : Byte) :
    (takePause m s).1.ChannelsWf := by
  unfold Machine.takePause
  split
  · exact hs
  · exact .foldl (fun u c => u.pauseChannel c) (fun u c => by simp)
      (fun u c hu hc => hc.turns (.pauseChannel hu (hc c))) _ hw hs

theorem State.ChannelsWf.takeResume (hs : s.ChannelsWf) (hw : s.StoreWf) (m : Byte) :
    (takeResume m s).1.ChannelsWf := by
  unfold Machine.takeResume
  split
  · exact hs
  · exact .foldl (fun u c => u.resumeChannel c) (fun u c => by simp)
      (fun u c hu hc => hc.turns (.resumeChannel hu (hc c))) _ hw hs

theorem State.ChannelsWf.takeClearFault (hs : s.ChannelsWf) (x : Byte) : (takeClearFault x s).1.ChannelsWf := by
  unfold Machine.takeClearFault
  split
  · exact hs
  · rename_i c _
    split
    · exact hs.turns (.idleChannel (Channel.WfUnder.bounded (hs c)))
    · exact hs

theorem State.ChannelsWf.takeSetPolicy (hs : s.ChannelsWf) (hw : s.StoreWf) (x p r n : Byte) :
    (takeSetPolicy x p r n s).1.ChannelsWf := by
  unfold Machine.takeSetPolicy
  split
  · rename_i c policy routing enable _ _ _ _
    have hengine : s.Turns c Channel.Wf
        (s.setEngine c { s.engine c with policy := policy, pauseRouting := routing }) :=
      .setEngine { (hs c).1 with engine := { (hs c).1.engine with } }
    have hset := hengine.trans (State.Turns.setTimer (Q := Channel.Wf)
      (x := { (s.setEngine c { s.engine c with policy := policy, pauseRouting := routing }).timer c with
        notify := enable })
      { hengine.own with timer := { hengine.own.timer with } })
    exact hs.turns (hset.trans (.followPauseLine (hw.of_store rfl) hset.own))
  · exact hs

theorem State.ChannelsWf.takeFireTrigger (hs : s.ChannelsWf) (m : Byte) : (takeFireTrigger m s).1.ChannelsWf := by
  unfold Machine.takeFireTrigger
  split
  · exact hs
  · simp only [answer]
    exact hs.softwareTrigger m

theorem State.ChannelsWf.takeSetRoute (hs : s.ChannelsWf) (x r p : Byte) (es : List Byte) :
    (takeSetRoute x r p es s).1.ChannelsWf := by
  unfold Machine.takeSetRoute
  split
  · rename_i c _ _ _
    split
    · exact hs
    · simp only
      split
      · exact hs
      · exact (hs.setLatches c _).of_panel rfl
  · exact hs

theorem State.ChannelsWf.takeSetRate (hs : s.ChannelsWf) (x : Byte) (d : Quad) :
    (takeSetRate x d s).1.ChannelsWf := by
  unfold Machine.takeSetRate
  split
  · exact hs
  · rename_i c _
    split
    · exact hs
    · rename_i hrange
      split
      · exact hs
      · have hrate : (⟨d.toNat, 0⟩ : Rate).Wf := by
          simp only [Rate.Wf]
          omega
        exact (hs.setRate c hrate).of_panel rfl

theorem State.ChannelsWf.takeSetOutput (hs : s.ChannelsWf) (x : Byte) (g o lo hi r : Half) (e a b : Byte) :
    (takeSetOutput x g o lo hi r e a b s).1.ChannelsWf := by
  unfold Machine.takeSetOutput
  split
  · rename_i c _ _ _ _ _ _ _
    split
    · exact hs
    · split
      · exact hs
      · rename_i hrest
        rw [not_or, not_lt, not_lt] at hrest
        refine hs.turns (.setOutput (Channel.WfUnder.output (hs c) (hs c).1.inForce fun g' hg => ?_))
        obtain rfl := Option.some.inj hg
        exact hrest
  · exact hs

theorem State.ChannelsWf.takeReadOutput (hs : s.ChannelsWf) (x : Byte) : (takeReadOutput x s).1.ChannelsWf := by
  unfold Machine.takeReadOutput
  split
  · exact hs
  · rename_i c _
    exact hs.turns (.setOutput (Channel.WfUnder.output (hs c) (hs c).1.inForce (hs c).1.pending))

/-- What a block does with any request keeps the channels well-formed. -/
theorem State.ChannelsWf.take (hs : s.ChannelsWf) (hw : s.StoreWf) {i : Instr} {take : State → Answer}
    (h : takeOf i = some take) : (take s).1.ChannelsWf := by
  cases i <;> simp only [takeOf, Option.some.injEq, reduceCtorEq] at h <;> subst h
  case run => exact hs.takeRun hw _ _ _ _
  case stop => exact hs.takeStop hw _ _
  case pause => exact hs.takePause hw _
  case resume => exact hs.takeResume hw _
  case clearFault => exact hs.takeClearFault _
  case setPolicy => exact hs.takeSetPolicy hw _ _ _ _
  case fireTrigger => exact hs.takeFireTrigger _
  case setRoute => exact hs.takeSetRoute _ _ _ _
  case setRate => exact hs.takeSetRate _ _
  case setOutput => exact hs.takeSetOutput _ _ _ _ _ _ _ _ _
  case readOutput => exact hs.takeReadOutput _
  all_goals refine hs.of_panel ?_
  case enterStandby => exact s.panel_takeEnterStandby
  case wake => exact s.panel_takeWake
  case setNotices => exact s.panel_takeSetNotices _
  case defineImage => exact s.panel_takeDefineImage _ _ _
  case writePage => exact s.panel_takeWritePage _ _ _
  case finishImage => exact s.panel_takeFinishImage _
  case commit => exact s.panel_takeCommit _
  case dropIncoming => exact s.panel_takeDropIncoming _
  case releaseHandle => exact s.panel_takeReleaseHandle _
  case readHandle => exact s.panel_takeReadHandle _
  case readMap => exact s.panel_takeReadMap _
  case setGuard => exact s.panel_takeSetGuard _ _ _ _
  case clearGuard => exact s.panel_takeClearGuard _
  case lockGuards => exact s.panel_takeLockGuards _
  case startImport => exact s.panel_takeStartImport _ _ _ _
  case cancelImport => exact s.panel_takeCancelImport
  case closeLibrary => exact s.panel_takeCloseLibrary
  case setWalk => exact s.panel_takeSetWalk _ _ _ _ _
  case setPartition => exact s.panel_takeSetPartition _
  case writeSteps => exact s.panel_takeWriteSteps _ _ _ _
  case readSteps => exact s.panel_takeReadSteps _ _ _
  case readChannel => exact s.panel_takeReadChannel _
  case setFlags => exact s.panel_takeSetFlags _ _ _
  case setReference => exact s.panel_takeSetReference _
  all_goals rfl

/-! ### Events -/

theorem State.ChannelsWf.handOnNext (hs : s.ChannelsWf) (hw : s.StoreWf) : s.handOnNext.ChannelsWf := by
  unfold State.handOnNext
  split
  · rename_i f rest _ _
    have hs' : ({ s with link := { s.link with requests := rest } } : State).ChannelsWf := hs.of_panel rfl
    unfold State.handOn
    split
    · exact hs'.of_panel rfl
    · exact hs'.of_panel rfl
    · split
      · rename_i ht
        exact (hs'.take (hw.of_store rfl) ht).of_panel rfl
      · exact hs'
  · exact hs

theorem State.ChannelsWf.engineReset (hs : s.ChannelsWf) : s.engineReset.ChannelsWf := by
  have h : ((s.eachChannel fun c s => s.resetChannel c).cancelImport .request).ChannelsWf :=
    (hs.eachChannel fun c _ hu => hu.turns (.resetChannel (hu c))).of_panel (State.panel_cancelImport _ _)
  unfold State.engineReset
  generalize (s.eachChannel fun c s => s.resetChannel c).cancelImport .request = u at h
  exact h.of_panel rfl

theorem State.ChannelsWf.completeSending (hs : s.ChannelsWf) : s.completeSending.ChannelsWf := by
  unfold State.completeSending
  split
  · exact hs
  · exact hs.of_panel rfl
  · have hs' : ({ s with link := { s.link with
        sending := none, slot := none, lastSent := some .reply } } : State).ChannelsWf := hs.of_panel rfl
    unfold State.afterReply
    split
    · exact hs'
    · exact hs'.of_panel rfl
    · exact hs'.engineReset
  · exact hs.of_panel rfl

/-- R215: the channels in their reset state, under any level of the PAUSE line. -/
theorem State.ChannelsWf.of_reset {t : State} (h : ∀ c, t.chan c = Channel.reset) : t.ChannelsWf := by
  intro c
  rw [h c]
  exact ⟨Channel.reset_wf, (Bool.and_false _).symm⟩

theorem State.ChannelsWf.event {t : State} {f : State → State} (hs : s.ChannelsWf) (hf : (f s).ChannelsWf)
    (h : event f s = .next t) : t.ChannelsWf :=
  event_keeps State.ChannelsWf f s t hs hf (fun _ _ hu => hu.of_panel rfl) h

/-- An event that is not at a channel. -/
theorem State.ChannelsWf.eventElsewhere {t : State} {f : State → State} (hs : s.ChannelsWf)
    (hf : (f s).panel = s.panel) (h : Machine.event f s = .next t) : t.ChannelsWf :=
  hs.event (hs.of_panel hf) h

theorem State.ChannelsWf.request {t : State} (hs : s.ChannelsWf) (hw : s.StoreWf) {i : Instr}
    {take : State → Answer} (ht : takeOf i = some take) (h : exec i s = .next t) : t.ChannelsWf :=
  submit_keeps State.ChannelsWf i take s t hs (hs.take hw ht) (fun _ _ hu => hu.of_panel rfl)
    ((exec_request ht s).symm.trans h)

theorem State.ChannelsWf.execPauseLineChange {t : State} {high : Bool} (hs : s.ChannelsWf) (hw : s.StoreWf)
    (h : execPauseLineChange high s = .next t) : t.ChannelsWf := by
  obtain rfl := Host.Outcome.next.inj h
  refine State.ChannelsWf.of_panel ?_ (State.panel_transmit _)
  exact .followPauseLine allChannels (s := { s with pauseLine := high }) (hw.of_store rfl)
    (fun c => (hs c).1) fun c hc => absurd (mem_allChannels c) hc

theorem State.ChannelsWf.execSamplePeriod {t : State} {c : Chan} (hs : s.ChannelsWf) (hw : s.StoreWf)
    (h : execSamplePeriod c s = .next t) : t.ChannelsWf := by
  refine hs.event ?_ h
  split
  · exact hs
  · have hup := hs.catchUp hw c (.samplePeriod c)
    simp only
    split
    · exact hup.turns (.periodEvent (hw.of_store (by simp)) (hup c))
    · exact hup

theorem State.ChannelsWf.execHoldRaise {t : State} {target : HoldTarget} (hs : s.ChannelsWf) (hw : s.StoreWf)
    (h : execHoldRaise target s = .next t) : t.ChannelsWf := by
  refine hs.event ?_ h
  split
  · exact (hs.catchUpAt hw target _).raiseEvent target
  · exact hs

theorem State.ChannelsWf.execHoldDrop {t : State} {target : HoldTarget} (hs : s.ChannelsWf) (hw : s.StoreWf)
    (h : execHoldDrop target s = .next t) : t.ChannelsWf := by
  refine hs.event ?_ h
  split
  · exact (hs.catchUpAt hw target _).dropEvent (hw.of_store (by simp)) target
  · exact hs

/-- Every command keeps the channels well-formed. -/
theorem State.ChannelsWf.exec {t : State} (hs : s.ChannelsWf) (hw : s.StoreWf) (i : Instr)
    (h : exec i s = .next t) : t.ChannelsWf := by
  cases i
  case receiveCharacter =>
    change execReceiveCharacter _ _ s = .next t at h
    refine hs.eventElsewhere ?_ h
    split
    · exact s.panel_receiveByte _
    · exact s.panel_framingError
  case linkGapTimeout => exact hs.eventElsewhere s.panel_linkGap h
  case requestHandOn => exact hs.event (hs.handOnNext hw) h
  case frameSent => exact hs.event hs.completeSending h
  case standbyBegin =>
    refine hs.event ?_ h
    split
    · exact hs.completeSending
    · exact hs
  case engineResetPerformed =>
    refine hs.event ?_ h
    split
    · exact hs.completeSending
    · exact hs
  case powerOnReset =>
    obtain rfl := Host.Outcome.next.inj h
    refine .of_reset fun c => ?_
    split
    · exact s.chan_resetBlocks c
    · exact (State.chan_of_panel (State.panel_leaveReset _) c).trans (s.chan_resetBlocks c)
  case resetLine =>
    obtain rfl := Host.Outcome.next.inj h
    exact .of_reset s.chan_resetBlocks
  case guardEnableChange =>
    obtain rfl := Host.Outcome.next.inj h
    exact hs.of_panel rfl
  case pauseLineChange => exact hs.execPauseLineChange hw h
  case triggerLineChange =>
    obtain rfl := Host.Outcome.next.inj h
    exact (hs.changeTriggerLine _ _).of_panel rfl
  case lockAcquired => exact hs.eventElsewhere s.panel_lockAcquired h
  case lockTimeoutExpiry =>
    exact hs.eventElsewhere (f := fun s => (s.taken .lockTimeoutExpiry).lockTimeoutExpired)
      (State.panel_lockTimeoutExpired _) h
  case referenceLost => exact hs.eventElsewhere s.panel_referenceLost h
  case transferDone => exact hs.eventElsewhere s.panel_transferDone h
  case holdRaise => exact hs.execHoldRaise hw h
  case holdDrop => exact hs.execHoldDrop hw h
  case samplePeriod => exact hs.execSamplePeriod hw h
  case timeBaseTap k => exact hs.event (hs.tapEvent k) h
  case timerExpiry =>
    change execTimerExpiry _ s = .next t at h
    refine hs.event ?_ h
    split
    · exact hs.tapEvent _
    · exact hs
  case operandChange c =>
    exact hs.event (f := fun s => (s.catchUp c (.operandChange c)).changeEvent c)
      ((hs.catchUp hw c _).changeEvent (hw.of_store (by simp)) c) h
  case importPageComplete =>
    change execImportPageComplete _ _ s = .next t at h
    refine hs.eventElsewhere ?_ h
    split
    · split <;> simp
    · rfl
  case walkIntervalExpiry =>
    refine hs.event ?_ h
    split
    · exact hs.tapEvent 3
    · exact hs
  case scanReadComplete =>
    change execScanReadComplete _ s = .next t at h
    refine hs.eventElsewhere ?_ h
    split
    · split <;> simp [State.panel_endVisit]
    · rfl
  case resetLineRelease =>
    obtain rfl := Host.Outcome.next.inj h
    split
    · exact hs.of_panel (State.panel_leaveReset _)
    · exact hs
  case pageDecay =>
    obtain rfl := Host.Outcome.next.inj h
    split
    · exact hs.of_panel rfl
    · exact hs.of_panel (s.panel_decayPage _ _)
  all_goals exact hs.request hw rfl h

/-- A step of the machine keeps them so. -/
theorem State.ChannelsWf.step {t : State} (hs : s.ChannelsWf) (hw : s.StoreWf) (h : step s = .next t) :
    t.ChannelsWf := by
  unfold Machine.step at h
  split at h
  · rename_i c rest _
    exact State.ChannelsWf.exec (s := { s with pending := rest }) (hs.of_panel rfl) (hw.of_store rfl) c h
  · unfold idle at h
    split at h
    · exact hs.exec hw _ h
    · obtain rfl := Host.Outcome.next.inj h
      exact hs.tick

end

end Sys2Proof.Machine

namespace Sys2Proof.Proofs
open Machine

/-- Settles O56: every command keeps every channel well-formed; the steps of a program rest on the checked
steps of the store. -/
theorem channelsStayWellFormed : Obligations.ChannelsStayWellFormed :=
  fun _ _ hw hs h => hs.step hw h

end Sys2Proof.Proofs
end

section
/-!
Pause reasons that change (R85, R98, R104, R105, R106): the PAUSE line, PAUSE and RESUME at one channel in every
case, and over the channels in closed form where those that are let go are in PLAY steps.
-/
namespace Sys2Proof.Machine

variable {s : State} {c : Chan}

/-! ### One channel -/

/-- R106: where a PAUSED channel keeps a reason, channels only pause. -/
theorem Engine.settled_pauses {e : Engine}
    (h : e.run = .paused → e.requestPause = true ∨ e.linePause = true) :
    e.settled = { e with run :=
      if e.run = .running ∧ (e.requestPause = true ∨ e.linePause = true) then .paused else e.run } := by
  unfold Engine.settled
  cases hr : e.run <;> cases hq : e.requestPause <;> cases hl : e.linePause <;> simp_all

/-- R106: where a RUNNING channel has no reason, channels are only let go. -/
theorem Engine.settled_releases {e : Engine}
    (h : e.run = .running → ¬(e.requestPause = true ∨ e.linePause = true)) :
    e.settled = { e with run :=
      if e.run = .paused ∧ ¬(e.requestPause = true ∨ e.linePause = true) then .running else e.run } := by
  unfold Engine.settled
  cases hr : e.run <;> cases hq : e.requestPause <;> cases hl : e.linePause <;> simp_all

/-- R106: pause reasons written to a channel, in the three cases of the rule. -/
theorem State.pauseChanged_setEngine (s : State) (c : Chan) (e : Engine) :
    let set : Prop := e.requestPause = true ∨ e.linePause = true
    let becomes (run : RunState) : State := s.setEngine c { e with run := run }
    (e.run = .running → set → (s.setEngine c e).pauseChanged c = becomes .paused) ∧
    (e.run = .paused → ¬set →
      (e.held = true → (s.setEngine c e).pauseChanged c = becomes .running) ∧
      (e.held = false → (becomes .running).GoesOnTo c ((s.setEngine c e).pauseChanged c))) ∧
    (¬(e.run = .running ∧ set) → ¬(e.run = .paused ∧ ¬set) →
      (s.setEngine c e).pauseChanged c = becomes e.run) := by
  intro set becomes
  have hbecomes : ∀ run, (s.setEngine c e).setEngine c { (s.setEngine c e).engine c with run := run } =
      becomes run := fun run => by
    rw [State.setEngine_setEngine, State.engine_setEngine_self]
  refine ⟨fun hr hset => ?_, fun hr hset => ?_, fun h1 h2 => ?_⟩
  · rw [State.pauseChanged_set (by simpa using hr) (by simpa using hset)]
    exact hbecomes _
  · have h := State.pauseChanged_clear (s := s.setEngine c e) (c := c) (by simpa using hr)
      (by rw [State.engine_setEngine_self]; exact hset)
    simp only [hbecomes] at h
    simpa only [State.engine_setEngine_self] using h
  · refine State.pauseChanged_same ?_ ?_ <;> rw [State.engine_setEngine_self]
    · exact h1
    · exact h2

/-- R106: a channel that is held, or let go in a PLAY step, only takes the run state of its reasons. -/
theorem State.pauseChanged_settles {e : Engine}
    (h : e.run = .paused → (e.requestPause || e.linePause) = false →
      e.held = true ∨ e.activity.playRecord?.isSome = true) :
    (s.setEngine c e).pauseChanged c = s.setEngine c e.settled := by
  rw [State.pauseChanged_eq, State.engine_setEngine_self, State.setEngine_setEngine]
  split
  · rename_i hgo
    rcases h hgo.1 hgo.2 with hheld | hplay
    · exact State.goOn_held (by simpa [Engine.settled] using hheld)
    · unfold State.goOn
      rw [State.engine_setEngine_self, show e.settled.activity = e.activity from rfl]
      cases ha : e.activity <;> simp_all [Activity.playRecord?]
  · rfl

/-! ### The channels in turn -/

/-- R105, R106: a channel whose LINE reason has followed the line. -/
def Channel.lined (x : Channel) (high : Bool) : Channel :=
  { x with engine := ({ x.engine with linePause := high && x.engine.pauseRouting } : Engine).settled }

/-- R105: the engines at a change of the PAUSE line that lets channels go in PLAY steps alone. -/
theorem State.pauseLine_closed {high : Bool}
    (h : ∀ c : Chan, (s.engine c).run = .paused →
      ((s.engine c).requestPause || (high && (s.engine c).pauseRouting)) = false → (s.playOf c).isSome = true) :
    ∃ t : State, exec (.pauseLineChange high) s = .next t.transmit ∧
      (∀ c, t.chan c = (s.chan c).lined high) ∧ t = { s with channels := t.channels, pauseLine := high } := by
  refine ⟨_, rfl, State.eachChannel_local { s with pauseLine := high } (fun c => (s.chan c).lined high) _ ?_⟩
  intro c u hu hc
  have hline : u.pauseLine = high := by rw [hu]
  have hengine : u.engine c = s.engine c := congrArg Channel.engine hc
  unfold State.followPauseLine
  simp only [hline, hengine]
  rw [State.pauseChanged_settles
    (e := { s.engine c with linePause := high && (s.engine c).pauseRouting }) fun hr hp => Or.inr (h c hr hp)]
  simp only [State.setEngine, Channel.lined, hc]
  rfl

/-- R104, R106: a channel whose REQUEST reason has been written. -/
def Channel.requested (x : Channel) (b : Bool) : Channel :=
  { x with engine := ({ x.engine with requestPause := b } : Engine).settled }

/-- R104: PAUSE at the channels that a mask names. -/
theorem State.pauseChannels_closed (s : State) (mask : Byte) :
    let t := (maskChannels mask).foldl (fun u c => u.pauseChannel c) s
    (∀ c, t.chan c = if mask.getLsbD c.val = true ∧ (s.engine c).run.active = true then
      (s.chan c).requested true else s.chan c) ∧ t = { s with channels := t.channels } := by
  have h := State.foldl_local s (fun c => if (s.engine c).run.active = true then (s.chan c).requested true else s.chan c)
    (fun c u => u.pauseChannel c) (maskChannels mask) (nodup_maskChannels mask) fun c _ u _ hc => ?_
  · refine ⟨fun c => (h.1 c).trans ?_, h.2⟩
    simp only [mem_maskChannels, ite_and]
  · have hengine : u.engine c = s.engine c := congrArg Channel.engine hc
    unfold State.pauseChannel
    rw [hengine]
    split
    · rw [State.pauseChanged_settles fun _ hp => by simp at hp]
      simp only [State.setEngine, Channel.requested, hc]
      rfl
    · rw [← hc, State.setChan_chan]

/-- R104: RESUME at the channels that a mask names, where it lets channels go in PLAY steps alone. -/
theorem State.resumeChannels_closed {mask : Byte}
    (h : ∀ c : Chan, mask.getLsbD c.val = true → (s.engine c).linePause = false → (s.engine c).run = .paused →
      (s.playOf c).isSome = true) :
    let t := (maskChannels mask).foldl (fun u c => u.resumeChannel c) s
    (∀ c, t.chan c = if mask.getLsbD c.val = true then (s.chan c).requested false else s.chan c) ∧
      t = { s with channels := t.channels } := by
  have h := State.foldl_local s (fun c => (s.chan c).requested false)
    (fun c u => u.resumeChannel c) (maskChannels mask) (nodup_maskChannels mask) fun c hm u _ hc => ?_
  · refine ⟨fun c => (h.1 c).trans ?_, h.2⟩
    simp only [mem_maskChannels]
  · have hengine : u.engine c = s.engine c := congrArg Channel.engine hc
    unfold State.resumeChannel
    rw [hengine, State.pauseChanged_settles (e := { s.engine c with requestPause := false })
      fun hr hp => Or.inr (h c ((mem_maskChannels mask c).mp hm) hp hr)]
    simp only [State.setEngine, Channel.requested, hc]
    rfl

/-! ### PAUSE and RESUME as commands -/

section
variable {tag mask : Byte}

theorem exec_pause (ho : s.open = true) (hm : mask ≠ 0) :
    exec (.pause tag mask) s =
      .next (((maskChannels mask).foldl (fun u c => u.pauseChannel c) s).withReply 0x3A tag
        [0x00, ((maskChannels mask).foldl (fun u c => u.pauseChannel c) s).requestMask]) := by
  rw [exec_open (take := takePause mask) rfl rfl rfl ho, takePause, if_neg hm]
  rfl

theorem exec_resume (ho : s.open = true) (hm : mask ≠ 0) :
    exec (.resume tag mask) s =
      .next (((maskChannels mask).foldl (fun u c => u.resumeChannel c) s).withReply 0x3B tag
        [0x00, ((maskChannels mask).foldl (fun u c => u.resumeChannel c) s).requestMask]) := by
  rw [exec_open (take := takeResume mask) rfl rfl rfl ho, takeResume, if_neg hm]
  rfl

end

end Sys2Proof.Machine

namespace Sys2Proof.Proofs
open Machine

/-- Settles O20: the LINE reason written to one channel is the pause rule's three cases; over the eight
channels each takes the run state of its reasons. -/
theorem pauseLineRisesAndFalls : Obligations.PauseLineRisesAndFalls := by
  refine ⟨fun _ _ => rfl, fun c s => ?_, fun s hpaused => ?_, fun s hpaused hrunning => ?_⟩
  · exact s.pauseChanged_setEngine c { s.engine c with linePause := s.pauseLine && (s.engine c).pauseRouting }
  · obtain ⟨t, hexec, hchan, ht⟩ := State.pauseLine_closed (s := s) (high := true) fun c hr hp => by
      rcases hpaused c hr with h | h <;> simp [h] at hp
    refine ⟨t, hexec, fun c => ?_, ht⟩
    rw [hchan, Channel.lined, Engine.settled_pauses (hpaused c)]
    rfl
  · obtain ⟨t, hexec, hchan, ht⟩ := State.pauseLine_closed (s := s) (high := false) fun c hr hp =>
      hpaused c hr (by simpa using hp)
    refine ⟨t, hexec, fun c => ?_, ht⟩
    rw [hchan, Channel.lined, Engine.settled_releases fun hr => by
      simp only [Bool.false_and, Bool.false_eq_true, or_false, Bool.not_eq_true]
      exact hrunning c hr]
    simp only [Bool.false_and, Bool.false_eq_true, or_false, Bool.not_eq_true]
    rfl

/-- Settles O32: the same pause rule at the REQUEST reason, and the two requests over the channels they name. -/
theorem pauseAndResume : Obligations.PauseAndResume := by
  refine ⟨fun tag mask s ho hm => exec_resume ho hm, fun c s => ?_,
    fun tag mask s ho hm => ⟨fun _ => ?_, fun hpaused hrunning => ?_⟩⟩
  · obtain ⟨-, hclear, hsame⟩ := s.pauseChanged_setEngine c { s.engine c with requestPause := false }
    refine ⟨fun hr hl => hclear hr (by simp [hl]), fun h1 h2 => hsame (fun h => ?_) fun h => ?_⟩
    · obtain ⟨hr, hset⟩ := h
      simp [h2 hr] at hset
    · obtain ⟨hr, hset⟩ := h
      exact h1.elim (fun hn => hn hr) fun hl => hset (Or.inr hl)
  · obtain ⟨hchan, ht⟩ := s.pauseChannels_closed mask
    refine ⟨_, exec_pause ho hm, fun c => (hchan c).trans ?_, ht⟩
    rw [Channel.requested, Engine.settled_pauses fun _ => Or.inl rfl]
    simp only [true_or, and_true]
    rfl
  · obtain ⟨hchan, ht⟩ := State.resumeChannels_closed hpaused
    refine ⟨_, exec_resume ho hm, fun c => (hchan c).trans ?_, ht⟩
    rw [Channel.requested, Engine.settled_releases fun hr => by
      simp only [Bool.false_eq_true, false_or, Bool.not_eq_true]
      exact hrunning c hr]
    simp only [Bool.false_eq_true, false_or, Bool.not_eq_true]
    rfl

end Sys2Proof.Proofs
end

section
/-!
The order of the events at one channel (R81, R84, R98, R125, R126, R141, R145; log entries 19, 30, 32): what a
channel takes before an event, an operand change, a raise and a drop of the hold, each said once in every run
state, and the statements about them.
-/
namespace Sys2Proof.Machine

variable {s : State} {c : Chan} {q : Condition}

/-! ### What a channel takes before an event -/

/-- R162: a channel that delivers no sample in a sample period. -/
theorem State.carries_iff : (s.engine c).carries = true ↔
    (s.engine c).run = .armed ∨ ((s.engine c).run = .running ∧ s.playOf c = none) := by
  unfold Engine.carries State.playOf
  cases (s.engine c).run <;> cases (s.engine c).activity <;> simp [Activity.playRecord?]

/-- The same at a target of the hold: with nothing older handed to it, an event is taken as it is. -/
theorem State.catchUpAt_nil {target : HoldTarget} {e : Instr}
    (h : ∀ c : Chan, target = .channel c → s.signalsBefore c e = []) : s.catchUpAt target e = s := by
  cases target with
  | channel c => exact State.catchUp_nil (h c rfl)
  | timerBank => rfl
  | scanner => rfl

/-- R143: a sample period that reaches its channel. -/
theorem State.exec_samplePeriod (hlive : s.inReset = false) (hhold : s.clock.hold = false)
    (hfirst : s.signalsBefore c (.samplePeriod c) = []) (hheld : (s.engine c).held = false) :
    exec (.samplePeriod c) s = .next (s.periodEvent c).transmit := by
  change execSamplePeriod c s = _
  refine (event_live _ hlive).trans ?_
  simp [hhold, State.catchUp_nil hfirst, State.admits, hheld]

/-- Any of the signals that the channel takes, taken by its own command. -/
theorem State.exec_signal {x : Instr} (hlive : s.inReset = false) (hx : signalsAt c x = true)
    (hmem : x ∈ s.handed) (hfirst : s.signalsBefore c x = []) :
    exec x s = .next (s.signalEvent x).transmit := by
  have hchan : ∀ {d : Chan}, decide (d = c) = true → d = c := of_decide_eq_true
  unfold signalsAt at hx
  split at hx
  · obtain rfl := hchan hx
    change execOperandChange _ s = _
    refine (event_live _ hlive).trans ?_
    rw [State.catchUp_nil hfirst]
    rfl
  · obtain rfl := hchan hx
    refine (event_live _ hlive).trans ?_
    rw [if_pos (by simp [hmem]), State.catchUpAt_nil fun d hd => by cases hd; exact hfirst]
    rfl
  · obtain rfl := hchan hx
    refine (event_live _ hlive).trans ?_
    rw [if_pos (by simp [hmem]), State.catchUpAt_nil fun d hd => by cases hd; exact hfirst]
    rfl
  · cases hx

/-- The events that a channel takes after the signals handed to it before them. -/
def State.takesUp (s : State) (c : Chan) (e : Instr) : Prop :=
  e = .operandChange c ∨ (e = .samplePeriod c ∧ s.clock.hold = false) ∨
    (e = .holdRaise (.channel c) ∧ (s.clock.hold = true ∨ e ∈ s.handed)) ∨
    (e = .holdDrop (.channel c) ∧ (s.clock.hold = false ∨ e ∈ s.handed))

/-- The part of a command for such an event that comes after those signals. -/
def State.ownEventAt (s : State) (c : Chan) : Instr → State
  | .samplePeriod _ => if s.admits (.samplePeriod c) then s.periodEvent c else s
  | e => s.signalEvent e

theorem State.exec_takesUp {e : Instr} (hlive : s.inReset = false) (he : s.takesUp c e) :
    exec e s = .next ((s.catchUp c e).ownEventAt c e).transmit := by
  rcases he with rfl | ⟨rfl, hhold⟩ | ⟨rfl, hraise⟩ | ⟨rfl, hdrop⟩
  · change execOperandChange c s = _
    exact event_live _ hlive
  · change execSamplePeriod c s = _
    refine (event_live _ hlive).trans ?_
    simp only [hhold]
    rfl
  · refine (event_live _ hlive).trans ?_
    rw [if_pos (by simpa using hraise)]
    rfl
  · refine (event_live _ hlive).trans ?_
    rw [if_pos (by simpa using hdrop)]
    rfl

/-- Log entry 32: a command for an event is that command after the signals handed before the event. -/
theorem State.exec_after_signals {e : Instr} (hlive : s.inReset = false) (he : s.takesUp c e)
    (hlive' : (s.catchUp c e).inReset = false) (hhold : (s.catchUp c e).clock.hold = s.clock.hold)
    (hmem : e ∈ s.handed → e ∈ (s.catchUp c e).handed) (hnone : (s.catchUp c e).signalsBefore c e = []) :
    exec e s = exec e (s.catchUp c e) := by
  have he' : (s.catchUp c e).takesUp c e := by
    unfold State.takesUp at he ⊢
    rw [hhold]
    exact he.imp_right (Or.imp_right (Or.imp (And.imp_right (Or.imp_right hmem)) (And.imp_right (Or.imp_right hmem))))
  rw [State.exec_takesUp hlive he, State.exec_takesUp hlive' he', State.catchUp_nil hnone]

/-! ### Operand changes (R125) -/

theorem State.exec_operandChange (hlive : s.inReset = false)
    (hfirst : s.signalsBefore c (.operandChange c) = []) :
    exec (.operandChange c) s = .next (s.changeEvent c).transmit := by
  change execOperandChange c s = _
  refine (event_live _ hlive).trans ?_
  rw [State.catchUp_nil hfirst]

/-- An operand change at a channel with no standing test to make. -/
theorem State.changeEvent_idle (h : (s.engine c).retests = false) :
    s.changeEvent c = s.taken (.operandChange c) := by
  have hstart : ((s.taken (.operandChange c)).engine c).run = .armed →
      (s.taken (.operandChange c)).startTest c = s.taken (.operandChange c) := fun hr => by
    refine State.startTest_held ?_
    change (s.engine c).run = .armed at hr
    change (s.engine c).held = true
    simpa [Engine.retests, hr] using h
  have hrelease : ((s.taken (.operandChange c)).engine c).run = .running →
      (s.taken (.operandChange c)).releaseTest c = s.taken (.operandChange c) := fun hr => by
    change (s.engine c).run = .running at hr
    unfold State.releaseTest
    rw [show (s.taken (.operandChange c)).engine c = s.engine c from rfl, hr]
    cases hh : (s.engine c).held <;> cases ha : (s.engine c).activity <;> simp [Engine.retests, hr, hh, ha] at h ⊢
  unfold State.changeEvent
  simp only [h]
  split
  · rename_i hr; exact hstart hr
  · rename_i hr; exact hrelease hr
  all_goals rfl

/-- The state in which a channel that makes a test takes the operand change: after the sample periods that
stand handed before it. -/
def State.changed (s : State) (c : Chan) : State :=
  (s.passPeriods c (s.periodsBefore c (.operandChange c))).taken (.operandChange c)

theorem State.changeEvent_armed (hr : (s.engine c).run = .armed) (hh : (s.engine c).held = false)
    (hq : (s.engine c).start = some q) :
    (s.changed c).engine c = s.engine c ∧
    ((s.changed c).operand c q.operand = q.negated → s.changeEvent c = s.changed c) ∧
    ((s.changed c).operand c q.operand ≠ q.negated →
      s.changeEvent c = ((s.changed c).tested c q).startChannel c) := by
  have hengine : (s.changed c).engine c = s.engine c :=
    State.engine_passPeriods_armed (s.periodsBefore c (.operandChange c)) hr
  have hevent : s.changeEvent c = (s.changed c).startTest c := by
    have hrun := (congrArg Engine.run hengine).trans hr
    unfold State.changed at hrun
    simp only [State.changeEvent, Engine.retests, hh, hr, Bool.not_false, Bool.true_and, if_true, hrun]
    rfl
  refine ⟨hengine, fun ht => ?_, fun ht => ?_⟩ <;> rw [hevent]
  · exact State.startTest_false (by rw [hengine, hr]) (by rw [hengine, hh]) (by rw [hengine, hq]) ht
  · exact State.startTest_true (by rw [hengine, hr]) (by rw [hengine, hh]) (by rw [hengine, hq]) ht

theorem State.changeEvent_waiting {out : WaitOutput} (hr : (s.engine c).run = .running)
    (hh : (s.engine c).held = false) (ha : (s.engine c).activity = .waiting ⟨q, out⟩) :
    ((s.changed c).operand c q.operand = q.negated → s.changeEvent c = s.changed c) ∧
    ((s.changed c).operand c q.operand ≠ q.negated →
      s.changeEvent c = ((s.changed c).tested c q).advanceEvent c) := by
  obtain ⟨hrun, hactivity, hheld⟩ :=
    State.engine_passPeriods_waiting (s.periodsBefore c (.operandChange c)) hr ha
  have hrun' : ((s.changed c).engine c).run = .running := hrun
  have hactivity' : ((s.changed c).engine c).activity = .waiting ⟨q, out⟩ := hactivity
  have hheld' : ((s.changed c).engine c).held = false := hheld.trans hh
  have hevent : s.changeEvent c = (s.changed c).releaseTest c := by
    unfold State.changed at hrun'
    simp only [State.changeEvent, Engine.retests, hh, hr, ha, Bool.not_false, Bool.true_and, if_true, hrun']
    rfl
  refine ⟨fun ht => ?_, fun ht => ?_⟩ <;> rw [hevent, State.releaseTest, hrun', hheld', hactivity']
  · simp [State.test_false ht]
  · simp [State.test_true ht]

/-! ### The hold (R81, R141) -/

theorem State.exec_holdRaise {target : HoldTarget} (hlive : s.inReset = false)
    (hrcu : s.clock.hold = true ∨ .holdRaise target ∈ s.handed)
    (hfirst : ∀ c : Chan, target = .channel c → s.signalsBefore c (.holdRaise target) = []) :
    exec (.holdRaise target) s = .next (s.raiseEvent target).transmit := by
  refine (event_live _ hlive).trans ?_
  rw [if_pos (by simpa using hrcu), State.catchUpAt_nil hfirst]

theorem State.exec_holdDrop {target : HoldTarget} (hlive : s.inReset = false)
    (hrcu : s.clock.hold = false ∨ .holdDrop target ∈ s.handed)
    (hfirst : ∀ c : Chan, target = .channel c → s.signalsBefore c (.holdDrop target) = []) :
    exec (.holdDrop target) s = .next (s.dropEvent target).transmit := by
  refine (event_live _ hlive).trans ?_
  rw [if_pos (by simpa using hrcu), State.catchUpAt_nil hfirst]

/-- An event that does not stand handed is not there to be taken. -/
theorem State.taken_of_not_mem {e : Instr} (h : e ∉ s.handed) : s.taken e = s := by
  rw [State.taken, List.erase_of_not_mem h]

/-- A raise that changes no channel. -/
theorem State.raiseEvent_quiet {target : HoldTarget}
    (h : ∀ c : Chan, target = .channel c → s.clock.hold = false ∨ (s.engine c).run.active = false) :
    s.raiseEvent target = s.taken (.holdRaise target) := by
  cases target with
  | channel c =>
    change (s.taken (.holdRaise (.channel c))).raiseHold c = _
    have hq : (s.clock.hold && (s.engine c).run.active) = false := by
      rcases h c rfl with h | h <;> simp [h]
    exact if_neg (by rw [State.taken_clock, show (s.taken _).engine c = s.engine c from rfl, hq]; decide)
  | timerBank => rfl
  | scanner => rfl

/-- R81: a raise at an active channel. -/
theorem State.raiseEvent_holds (hhold : s.clock.hold = true) (ha : (s.engine c).run.active = true) :
    s.raiseEvent (.channel c) =
      (s.taken (.holdRaise (.channel c))).setEngine c { s.engine c with held := true } :=
  if_pos (by rw [State.taken_clock, hhold]; exact ha)

/-- A drop that lets no channel go. -/
theorem State.dropEvent_quiet {target : HoldTarget}
    (h : ∀ c : Chan, target = .channel c → s.clock.hold = true ∨ (s.engine c).held = false) :
    s.dropEvent target = s.taken (.holdDrop target) := by
  cases target with
  | channel c =>
    refine if_neg ?_
    rcases h c rfl with h | h <;> simp [h]
  | timerBank => rfl
  | scanner => rfl

/-- The channel free of the hold, before it takes anything. -/
def State.freed (s : State) (c : Chan) : State := s.setEngine c { s.engine c with held := false }

/-- The state in which a freed channel goes on: after the sample periods that stand handed before the drop. -/
def State.dropped (s : State) (c : Chan) : State :=
  ((s.freed c).passPeriods c (s.periodsBefore c (.holdDrop (.channel c)))).taken (.holdDrop (.channel c))

/-- R81: a drop at a held channel. -/
theorem State.dropEvent_frees (hhold : s.clock.hold = false) (hheld : (s.engine c).held = true) :
    s.dropEvent (.channel c) = match ((s.dropped c).engine c).run with
      | .armed => (s.dropped c).startTest c
      | .running => (s.dropped c).goOn c
      | .paused | .idle | .faulted => s.dropped c := by
  have hpos : (!s.clock.hold && (s.engine c).held) = true := by simp [hhold, hheld]
  exact if_pos hpos

theorem State.dropEvent_armed (hhold : s.clock.hold = false) (hheld : (s.engine c).held = true)
    (hr : (s.engine c).run = .armed) (hq : (s.engine c).start = some q) :
    ((s.dropped c).operand c q.operand = q.negated → s.dropEvent (.channel c) = s.dropped c) ∧
    ((s.dropped c).operand c q.operand ≠ q.negated →
      s.dropEvent (.channel c) = ((s.dropped c).tested c q).startChannel c) := by
  have hfreed : (s.freed c).engine c = { s.engine c with held := false } := s.engine_setEngine_self c _
  have hengine : (s.dropped c).engine c = { s.engine c with held := false } :=
    (State.engine_passPeriods_armed (s := s.freed c) _ (by rw [hfreed, hr])).trans hfreed
  have hevent : s.dropEvent (.channel c) = (s.dropped c).startTest c := by
    rw [State.dropEvent_frees hhold hheld, hengine]
    simp only [hr]
  refine ⟨fun ht => ?_, fun ht => ?_⟩ <;> rw [hevent]
  · exact State.startTest_false (by rw [hengine]; exact hr) (by rw [hengine]) (by rw [hengine]; exact hq) ht
  · exact State.startTest_true (by rw [hengine]; exact hr) (by rw [hengine]) (by rw [hengine]; exact hq) ht

theorem State.dropEvent_paused (hhold : s.clock.hold = false) (hheld : (s.engine c).held = true)
    (hr : (s.engine c).run = .paused) :
    s.dropEvent (.channel c) = (s.freed c).taken (.holdDrop (.channel c)) := by
  have hfreed : (s.freed c).engine c = { s.engine c with held := false } := s.engine_setEngine_self c _
  have hdropped : s.dropped c = (s.freed c).taken (.holdDrop (.channel c)) := by
    rw [State.dropped, State.passPeriods_of_not_carries]
    simp [hfreed, Engine.carries, hr]
  have hengine : (s.dropped c).engine c = { s.engine c with held := false } := by
    rw [hdropped]
    exact hfreed
  rw [State.dropEvent_frees hhold hheld, hengine]
  simp only [hr]
  exact hdropped

end Sys2Proof.Machine

namespace Sys2Proof.Proofs
open Machine

/-- Settles O29: an operand change in every run state, the sample periods that a channel takes before it goes on,
and the signals that it takes before an event. -/
theorem operandChangesAreRetested : Obligations.OperandChangesAreRetested := by
  refine ⟨fun c q s hlive hfirst => ?_, fun c n s => ⟨rfl, fun hp => ?_, fun hp hhold => ?_,
    fun hp hhold hlive hheld hfirst w hw => ?_⟩, fun c e x es s hlive => ⟨rfl, fun hx hmem hfirst w hw => ?_,
    fun he hlive' hhold hmem hnone => State.exec_after_signals hlive he hlive' hhold hmem hnone⟩⟩
  · intro t u v
    have hexec : ∀ {w : State}, s.changeEvent c = w → exec (.operandChange c) s = .next w.transmit :=
      fun hw => hw ▸ State.exec_operandChange hlive hfirst
    refine ⟨fun hr => hexec (State.changeEvent_idle ?_), fun hh => hexec (State.changeEvent_idle ?_),
      fun hr ha => hexec (State.changeEvent_idle ?_), fun out hr hh ha => ?_, fun hr hh hq => ?_⟩
    · rcases hr with hr | hr | hr <;> simp [Engine.retests, hr]
    · simp [Engine.retests, hh]
    · unfold State.playOf at ha
      cases hact : (s.engine c).activity <;> simp [Engine.retests, hr, hact, Activity.playRecord?] at ha ⊢
    · obtain ⟨hfalse, htrue⟩ := State.changeEvent_waiting hr hh ha
      exact ⟨fun ht => hexec (hfalse ht), fun ht => hexec (htrue ht)⟩
    · obtain ⟨hengine, hfalse, htrue⟩ := State.changeEvent_armed hr hh hq
      have hv : v.engine c = u.engine c := State.engine_tested _ _ _ _
      have hve : v.engine c = s.engine c := hv.trans hengine
      obtain ⟨hpaused, hruns⟩ := State.startsTo_startChannel v c
      refine ⟨fun ht => hexec (hfalse ht), fun ht => ⟨fun hp => hexec ((htrue ht).trans ?_),
        fun hp1 hp2 => hexec ((htrue ht).trans ?_)⟩⟩
      · rw [← hv]
        exact hpaused (by rw [hve]; exact hp)
      · rw [← hv]
        exact hruns (by rw [hve]; exact hp1) (by rw [hve]; exact hp2)
  · exact State.passPeriods_of_not_carries (eq_false_of_ne_true (State.carries_iff.not.mpr hp)) n
  · rw [State.passPeriods_succ (State.carries_iff.mpr hp), hhold]
    rfl
  · obtain rfl := Host.Outcome.next.inj ((State.exec_samplePeriod hlive hhold hfirst hheld).symm.trans hw)
    rw [State.passPeriods_succ (State.carries_iff.mpr hp), hhold]
    rfl
  · obtain rfl := Host.Outcome.next.inj ((State.exec_signal hlive hx hmem hfirst).symm.trans hw)
    rfl

/-- Settles O23: the raise, the drop at a channel that it does not let go, and the drop at a held channel in each
run state. -/
theorem holdReachesTheBlocks : Obligations.HoldReachesTheBlocks := by
  intro target s hlive raise drop first
  refine ⟨fun hhold hfirst => ⟨fun c hc ha => ?_, fun ha => ?_⟩, fun hhold hmem => ?_, fun hhold hfirst => ?_,
    fun hhold hmem => ?_, fun hrcu hfirst => ⟨fun hquiet => ?_, fun c hc hhold hheld => ?_⟩⟩
  · rw [State.exec_holdRaise hlive (Or.inl hhold) hfirst]
    subst hc
    rw [State.raiseEvent_holds hhold ha]
  · rw [State.exec_holdRaise hlive (Or.inl hhold) hfirst, State.raiseEvent_quiet fun c hc => Or.inr (ha c hc)]
  · refine (event_live _ hlive).trans ?_
    rw [if_neg (by simpa [hhold] using hmem)]
  · by_cases hmem : raise ∈ s.handed
    · rw [State.exec_holdRaise hlive (Or.inr hmem) hfirst, State.raiseEvent_quiet fun _ _ => Or.inl hhold]
    · rw [State.taken_of_not_mem hmem]
      refine (event_live _ hlive).trans ?_
      rw [if_neg (by simpa [hhold] using hmem)]
  · refine (event_live _ hlive).trans ?_
    rw [if_neg (by simpa [hhold] using hmem)]
  · rw [State.exec_holdDrop hlive hrcu hfirst, State.dropEvent_quiet hquiet]
  · subst hc
    intro free v
    have hexec : ∀ {w : State}, s.dropEvent (.channel c) = w → exec drop s = .next w.transmit :=
      fun hw => hw ▸ State.exec_holdDrop hlive hrcu hfirst
    have hevent := State.dropEvent_frees hhold hheld
    refine ⟨fun hr => hexec (State.dropEvent_paused hhold hheld hr), fun hr => ⟨fun hrun hfree => ?_,
      fun hrun harmed => ?_⟩, fun q hr hq => ?_⟩
    · rw [show ((s.dropped c).engine c).run = .running from hrun] at hevent
      exact ⟨_, State.goesOnTo_goOn hrun hfree, hexec hevent⟩
    · refine hexec (hevent.trans ?_)
      split
      · rename_i h; exact absurd h harmed
      · rename_i h; exact absurd h hrun
      all_goals rfl
    · obtain ⟨hfalse, htrue⟩ := State.dropEvent_armed hhold hheld hr hq
      exact ⟨fun ht => hexec (hfalse ht), fun ht => ⟨_, State.startsTo_startChannel _ c, hexec (htrue ht)⟩⟩

end Sys2Proof.Proofs
end

section
/-!
A sample period of a channel (R80, R89, R90, R103, R106, R143, R147, R160 to R163, R166, R168): the settings come
into force, and then the channel carries the rest level or a played code, takes steps, or delivers a sample;
the end of a pass and the completion of a PLAY step; and the statements about them.
-/
namespace Sys2Proof.Machine

variable {s : State} {c : Chan} {p : PlayRecord}

/-! ### What the port carries -/

/-- R168: the settings in force at a sample period. -/
def Output.coming (o : Output) : OutputSettings := o.pending.getD o.inForce

theorem Output.settle_eq (o : Output) : o.settle = { o with inForce := o.coming, pending := none } := by
  obtain ⟨_, _ | _, _⟩ := o <;> rfl

/-- The output with its settings in force, a code of a kind on its port, and its marker lines driven. -/
def Output.shows (o : Output) (code : Half) (kind : PortKind) (clips : Bool) : Output :=
  { o with
    inForce := o.coming, pending := none, port := code, portKind := kind
    lineA := o.levelA != o.coming.invertA, lineB := o.levelB != o.coming.invertB
    clipped := o.clipped || clips }

/-- R162: the channel after a sample period that calls for the rest level. -/
def Channel.rested (x : Channel) : Channel :=
  { x with rate := { x.rate with phase := 0 }, output := x.output.shows x.output.coming.rest .rest false }

/-- R163: the channel after a sample period that puts a saturated code on its port as its last played code. -/
def Channel.shows (x : Channel) (kind : PortKind) (v : Int) : Channel :=
  { x with
    rate := { x.rate with phase := 0 }
    engine := { x.engine with lastCode := some (saturate x.output.coming v).1 }
    output := x.output.shows (saturate x.output.coming v).1 kind (saturate x.output.coming v).2 }

/-- R168: the state in which the channel takes its sample period, the event taken and the settings in force. -/
def State.settledAt (s : State) (c : Chan) : State :=
  (s.taken (.samplePeriod c)).setChan c
    { s.chan c with rate := { s.rate c with phase := 0 }, output := (s.output c).settle }

theorem State.chan_settledAt (s : State) (c : Chan) : (s.settledAt c).chan c =
    { s.chan c with rate := { s.rate c with phase := 0 }, output := (s.output c).settle } :=
  State.chan_setChan_self _ c _

theorem State.engine_settledAt (s : State) (c : Chan) : (s.settledAt c).engine c = s.engine c :=
  (congrArg Channel.engine (s.chan_settledAt c) :)

theorem State.carryRest_settledAt (s : State) (c : Chan) :
    (s.settledAt c).carryRest c = (s.taken (.samplePeriod c)).setChan c (s.chan c).rested := by
  simp only [State.carryRest, State.setOutput, State.output, State.chan_settledAt]
  rw [State.settledAt, State.setChan_setChan, Channel.rested, Output.settle_eq]
  simp only [Output.carryRest, Output.driveLines, markerLine, Output.shows, Bool.or_false]
  rfl

theorem State.carryCode_settledAt (s : State) (c : Chan) (code : Half) :
    (s.settledAt c).carryCode c code =
      (s.taken (.samplePeriod c)).setChan c ((s.chan c).shows .carried code.toInt) := by
  simp only [State.carryCode, State.setEngine, State.setOutput, State.engine, State.output, State.chan_settledAt,
    State.chan_setChan_self, State.setChan_setChan]
  rw [State.settledAt, State.setChan_setChan, Channel.shows, Output.settle_eq]
  rfl

theorem State.deliverSample_settledAt (s : State) (c : Chan) (scale : Option Half) (sample : Half) :
    (s.settledAt c).deliverSample c scale sample = (s.taken (.samplePeriod c)).setChan c
      ((s.chan c).shows .played (scaledCode (s.output c).coming scale sample)) := by
  simp only [State.deliverSample, State.setEngine, State.setOutput, State.engine, State.output, State.chan_settledAt,
    State.chan_setChan_self, State.setChan_setChan]
  rw [State.settledAt, State.setChan_setChan, Channel.shows, Output.settle_eq]
  rfl

/-! ### The sample period in each run state -/

theorem State.settle_taken (s : State) (c : Chan) :
    let u := (s.taken (.samplePeriod c)).setRate c { (s.taken (.samplePeriod c)).rate c with phase := 0 }
    u.setOutput c (u.output c).settle = s.settledAt c := by
  simp only [State.setRate, State.setOutput, State.output, State.chan_setChan_self, State.setChan_setChan]
  rfl

/-- R80, R162: outside its program a channel carries the rest level. -/
theorem State.periodEvent_outside (h : (s.engine c).run.inProgram = false) :
    s.periodEvent c = (s.settledAt c).carryRest c := by
  unfold State.periodEvent State.samplePeriod
  simp only [State.settle_taken, State.engine_settledAt]
  cases hr : (s.engine c).run <;> simp_all [RunState.inProgram]

theorem State.periodEvent_paused (h : (s.engine c).run = .paused) :
    s.periodEvent c = (s.settledAt c).frozenPeriod c := by
  simp only [State.periodEvent, State.samplePeriod, State.settle_taken, State.engine_settledAt, h]

/-- R143: a sample period of a RUNNING channel, by its activity. -/
theorem State.periodEvent_running (h : (s.engine c).run = .running) :
    ((s.engine c).activity = .between → s.periodEvent c = ((s.settledAt c).carryRest c).stepEvent c) ∧
    (∀ w, (s.engine c).activity = .waiting w → s.periodEvent c = (s.settledAt c).waitPeriod c w) ∧
    (∀ p, (s.engine c).activity = .playing p → s.periodEvent c = (s.settledAt c).playPeriod c p true) ∧
    ∀ p, (s.engine c).activity = .holding p → s.periodEvent c = (s.settledAt c).playPeriod c p false := by
  refine ⟨fun ha => ?_, fun w ha => ?_, fun p ha => ?_, fun p ha => ?_⟩ <;>
    simp only [State.periodEvent, State.samplePeriod, State.settle_taken, State.engine_settledAt, h, ha]

section
variable {q : Condition} {out : WaitOutput} {code : Half}

/-- R98: in a WAIT the channel carries the WAIT output, RUNNING or PAUSED. -/
theorem State.periodEvent_waiting (hr : (s.engine c).run.inProgram = true)
    (ha : (s.engine c).activity = .waiting ⟨q, out⟩) :
    s.periodEvent c = (s.settledAt c).waitPeriod c ⟨q, out⟩ := by
  cases hrun : (s.engine c).run <;> simp [hrun, RunState.inProgram] at hr
  · obtain ⟨-, hwaiting, -⟩ := State.periodEvent_running hrun
    exact hwaiting _ ha
  · rw [State.periodEvent_paused hrun]
    simp only [State.frozenPeriod, State.engine_settledAt, ha]

theorem State.waitPeriod_rest (h : out = .rest ∨ (s.engine c).lastCode = none) :
    s.waitPeriod c ⟨q, out⟩ = s.carryRest c := by
  unfold State.waitPeriod
  rcases h with rfl | h
  · rfl
  · cases out <;> simp [h]

theorem State.waitPeriod_code (h : (s.engine c).lastCode = some code) :
    s.waitPeriod c ⟨q, .holdLast⟩ = s.carryCode c code := by
  simp only [State.waitPeriod, h]

/-- R106: a channel paused in a PLAY step carries what its port carried. -/
theorem State.frozenPeriod_play (h : (s.playOf c).isSome = true) :
    ((s.output c).portKind = .rest → s.frozenPeriod c = s.carryRest c) ∧
    ((s.output c).portKind ≠ .rest → s.frozenPeriod c = s.carryCode c (s.output c).port) := by
  unfold State.playOf at h
  unfold State.frozenPeriod
  cases ha : (s.engine c).activity <;> simp only [ha, Activity.playRecord?, Option.isSome, Bool.false_eq_true] at h <;>
    cases hk : (s.output c).portKind <;> simp

theorem State.frozenPeriod_between (h : (s.engine c).activity = .between) :
    s.frozenPeriod c = s.carryRest c := by
  simp only [State.frozenPeriod, h]

end

/-! ### The end of a pass -/

/-- R89, R147: the state after the T7 tap event of a pass that ends. -/
def State.tappedPass (s : State) (c : Chan) : State :=
  if (s.timer c).running = true ∧ (s.timer c).tap = 7 then
    if (s.timer c).count ≤ 1 then s.expireTimer c
    else s.setTimer c { s.timer c with count := (s.timer c).count - 1 }
  else s

theorem State.tapTimer_seven (s : State) (c : Chan) : s.tapTimer c 7 = s.tappedPass c := by
  simp [State.tapTimer, State.tappedPass]

theorem State.passComplete_next (h : p.pass < p.passCount) : s.passComplete c p true =
    (s.tappedPass c).setActivity c (.playing { p with pass := p.pass + 1, position := 0 }) := by
  simp [State.passComplete, State.tapTimer_seven, h]

theorem State.passComplete_last {counted : Bool} (h : counted = true → p.passCount ≤ p.pass) :
    s.passComplete c p counted = (s.tappedPass c).holdTest c p := by
  cases counted
  · simp [State.passComplete, State.tapTimer_seven]
  · simp [State.passComplete, State.tapTimer_seven, h rfl]

theorem State.holdTest_none (h : p.hold = none) : s.holdTest c p = s.completePlay c p := by
  simp only [State.holdTest, h]

theorem State.holdTest_some {q : Condition} (h : p.hold = some q) :
    (s.operand c q.operand = q.negated → s.holdTest c p =
      s.setActivity c (.holding { p with holdPass := min 65535 (p.holdPass + 1), position := 0 })) ∧
    (s.operand c q.operand ≠ q.negated → s.holdTest c p = (s.tested c q).completePlay c p) := by
  refine ⟨fun ht => ?_, fun ht => ?_⟩
  · simp [State.holdTest, h, State.test_false ht]
  · simp [State.holdTest, h, State.test_true ht]

/-! ### The completion of a PLAY step (R90, R103) -/

theorem State.beginEvent_beginEvent (s : State) (c : Chan) : (s.beginEvent c).beginEvent c = s.beginEvent c := by
  simp only [State.beginEvent, State.setEngine_setEngine, State.engine_setEngine_self]

/-- R102: the end of the run of a channel that holds no reference any more. -/
theorem State.endRun_beginEvent (s : State) (c : Chan) (cause : RunEndCause) :
    (s.beginEvent c).endRun c cause =
      (s.setChan c (s.chan c).stopped).notify (.runEnd c cause (s.engine c).index none) := by
  have hnone : (s.beginEvent c).playOf c = none := by
    simp [State.playOf, State.beginEvent, Activity.playRecord?]
  rw [State.endRun, State.endReference_none hnone, State.idleChannel_eq]
  simp only [State.beginEvent, State.setEngine, State.engine, State.chan_setChan_self, State.setChan_setChan]
  rfl

theorem State.completePlay_eq (s : State) (c : Chan) (p : PlayRecord) : s.completePlay c p =
    let u := (s.markOutput c p.aEnd p.bEnd).release p.serial
    if (s.engine c).stopPending = true then
      (u.setChan c (u.chan c).stopped).notify (.runEnd c .stopped (s.engine c).index none)
    else u.advanceEvent c := by
  have hengine : ((s.markOutput c p.aEnd p.bEnd).release p.serial).engine c = s.engine c := by
    rw [State.engine, State.chan_release]
    exact s.engine_setOutput c c _
  unfold State.completePlay
  simp only
  rw [State.beginEvent, State.engine_setEngine_self, hengine, ← hengine, ← State.beginEvent,
    State.endRun_beginEvent, State.advanceEvent, State.beginEvent_beginEvent]
  rfl

end Sys2Proof.Machine

namespace Sys2Proof.Proofs
open Machine

/-- Settles O25: the code that each run state and activity calls for, over the channel with its settings in
force. -/
theorem samplePeriodCarries : Obligations.SamplePeriodCarries := by
  intro c s hlive x e g rested carried
  have hrested : (s.settledAt c).carryRest c = rested := by
    rw [State.carryRest_settledAt, Channel.rested, Output.shows, Bool.or_false]
    rfl
  have hcarried : ∀ code, (s.settledAt c).carryCode c code = carried code := s.carryCode_settledAt c
  refine ⟨fun hhold => ?_, fun hfirst hheld => ?_, fun hhold hfirst hheld => ?_⟩
  · change execSamplePeriod c s = _
    refine (event_live _ hlive).trans ?_
    rw [if_pos hhold]
  · change execSamplePeriod c s = _
    refine (event_live _ hlive).trans ?_
    have hheld' : (s.engine c).held = true := hheld
    simp [State.catchUp_nil hfirst, State.admits, hheld']
  · have hexec : ∀ {w : State}, s.periodEvent c = w → exec (.samplePeriod c) s = .next w.transmit :=
      fun hw => hw ▸ State.exec_samplePeriod hlive hhold hfirst hheld
    have houtput : ((s.settledAt c).output c).portKind = x.output.portKind ∧
        ((s.settledAt c).output c).port = x.output.port := by
      rw [State.output, State.chan_settledAt, State.output, Output.settle_eq]
      exact ⟨rfl, rfl⟩
    have hplay : (s.settledAt c).playOf c = s.playOf c := by
      rw [State.playOf, State.engine_settledAt]
      rfl
    refine ⟨fun h => hexec (Eq.trans ?_ hrested), fun q out hr ha hrest => hexec (Eq.trans ?_ hrested),
      fun q code hr ha hcode => hexec (Eq.trans ?_ (hcarried code)),
      fun hr hp hk => hexec (Eq.trans ?_ (hcarried _)), fun hr ha => hexec ?_⟩
    · rcases h with h | ⟨hr, ha⟩ | ⟨hr, hp, hk⟩
      · exact State.periodEvent_outside h
      · rw [State.periodEvent_paused hr, State.frozenPeriod_between (by rw [State.engine_settledAt]; exact ha)]
      · rw [State.periodEvent_paused hr]
        exact (State.frozenPeriod_play (by rw [hplay]; exact hp)).1 (houtput.1.trans hk)
    · rw [State.periodEvent_waiting hr ha, State.waitPeriod_rest (by rw [State.engine_settledAt]; exact hrest)]
    · rw [State.periodEvent_waiting hr ha, State.waitPeriod_code (by rw [State.engine_settledAt]; exact hcode)]
    · rw [State.periodEvent_paused hr, ← houtput.2]
      exact (State.frozenPeriod_play (by rw [hplay]; exact hp)).2 (by rw [houtput.1]; exact hk)
    · obtain ⟨hbetween, -⟩ := State.periodEvent_running hr
      rw [hbetween ha]
      exact congrArg (fun u => State.stepEvent u c) hrested

/-- Settles O26: the delivered sample, then the position, the pass, the hold test or the completion; and what a
completion is. -/
theorem samplePeriodDeliversASample : Obligations.SamplePeriodDeliversASample := by
  refine ⟨fun c p s hlive hhold hfirst hr hheld => ?_, fun c p s => ?_⟩
  · intro x g r delivered tapped goesOn
    have hdelivered : (s.settledAt c).deliverSample c p.scale
        ((s.settledAt c).sampleAt p.firstPage p.position) = delivered := s.deliverSample_settledAt c p.scale _
    have htapped : delivered.tappedPass c = tapped := by
      have htimer : delivered.timer c = x.timer := by
        simp only [delivered, State.timer, State.chan_setChan_self]
      rw [State.tappedPass, htimer]
    have hexec : ∀ {w : State}, s.periodEvent c = w → exec (.samplePeriod c) s = .next w.transmit :=
      fun hw => hw ▸ State.exec_samplePeriod hlive hhold hfirst hheld
    have hperiod : ∀ {counted : Bool}, s.periodEvent c = (s.settledAt c).playPeriod c p counted →
        (p.position + 1 < p.sampleLength → s.periodEvent c = delivered.setActivity c
          (if counted then .playing { p with position := p.position + 1 }
            else .holding { p with position := p.position + 1 })) ∧
        (p.sampleLength ≤ p.position + 1 → s.periodEvent c = delivered.passComplete c p counted) := by
      intro counted h
      rw [h, State.playPeriod, hdelivered]
      exact ⟨fun hp => if_pos hp, fun hp => if_neg (Nat.not_lt.mpr hp)⟩
    obtain ⟨-, -, hplaying, hholding⟩ := State.periodEvent_running hr
    refine ⟨fun ha hp => hexec ((hperiod (hplaying p ha)).1 hp), fun ha hp => hexec ((hperiod (hholding p ha)).1 hp),
      fun ha hp hpass => hexec ?_, fun ha hp => ?_⟩
    · rw [(hperiod (hplaying p ha)).2 hp, State.passComplete_next hpass, htapped]
      rfl
    · have hlast : s.periodEvent c = tapped.holdTest c p := by
        rcases ha with ⟨ha, hpass⟩ | ha
        · rw [(hperiod (hplaying p ha)).2 hp, State.passComplete_last fun _ => hpass, htapped]
        · rw [(hperiod (hholding p ha)).2 hp, State.passComplete_last fun h => (by cases h), htapped]
      refine ⟨fun hq => hexec (hlast.trans (State.holdTest_none hq)), fun q hq => ?_⟩
      obtain ⟨hfalse, htrue⟩ := State.holdTest_some (s := tapped) (c := c) hq
      exact ⟨fun ht => hexec (hlast.trans (hfalse ht)), fun ht => hexec (hlast.trans (htrue ht))⟩
  · intro o mark u
    have hmark : s.setOutput c { o with levelA := mark o.levelA p.aEnd, levelB := mark o.levelB p.bEnd } =
        s.markOutput c p.aEnd p.bEnd := by
      refine congrArg (s.setOutput c) ?_
      unfold Output.mark
      cases p.aEnd <;> cases p.bEnd <;> rfl
    have hu : u = (s.markOutput c p.aEnd p.bEnd).release p.serial := congrArg (fun t => t.release p.serial) hmark
    rw [State.completePlay_eq, ← hu]
    exact ⟨fun hs => if_pos hs, fun hs => if_neg (by simp [hs])⟩

end Sys2Proof.Proofs
end

section
/-!
RUN (R82 to R85, R116, R145): the masks that a refusal carries, the channels as the preparation leaves them,
and the start tests in ascending order with the mask of the channels that started; and the statement about them.
-/
namespace Sys2Proof.Machine

variable {s : State} {c d : Chan} {q : Condition} {tag mask code sense : Byte} {first : Half}

/-! ### Masks of channels -/

theorem getLsbD_onlyChan (c d : Chan) : (onlyChan d).getLsbD c.val = decide (c = d) := by
  revert c d; decide

/-- Two masks that name the same channels are the same. -/
theorem mask_ext {m n : Byte} (h : ∀ c : Chan, m.getLsbD c.val = n.getLsbD c.val) : m = n :=
  BitVec.eq_of_getLsbD_eq fun i hi => h ⟨i, hi⟩

theorem getLsbD_foldl_onlyChan (l : List Chan) (m : Byte) (c : Chan) :
    (l.foldl (fun n d => n ||| onlyChan d) m).getLsbD c.val = (m.getLsbD c.val || decide (c ∈ l)) := by
  induction l generalizing m with
  | nil => simp
  | cons d l ih =>
    rw [List.foldl_cons, ih, BitVec.getLsbD_or, getLsbD_onlyChan, Bool.or_assoc]
    simp [Bool.decide_or]

theorem foldl_onlyChan_maskChannels (mask : Byte) :
    (maskChannels mask).foldl (fun n d => n ||| onlyChan d) 0 = mask :=
  mask_ext fun c => by
    rw [getLsbD_foldl_onlyChan]
    simp [mem_maskChannels]

/-- The named channels that fail a test, as a refusal of RUN carries them. -/
def namedMask (mask : Byte) (p : Chan → Bool) : Byte := maskOf fun c => mask.getLsbD c.val && p c

theorem namedMask_eq_zero {p : Chan → Bool} : namedMask mask p = 0 ↔ ∀ c ∈ maskChannels mask, p c = false := by
  rw [namedMask, maskOf_eq_zero]
  simp [mem_maskChannels]

theorem namedMask_ne_zero {P : Chan → Prop} [DecidablePred P] (h : ∃ c ∈ maskChannels mask, P c) :
    namedMask mask (fun c => decide (P c)) ≠ 0 := fun hzero => by
  obtain ⟨c, hc, hp⟩ := h
  simpa [hp] using namedMask_eq_zero.mp hzero c hc

theorem namedMask_eq_zero_of_not {P : Chan → Prop} [DecidablePred P] (h : ∀ c ∈ maskChannels mask, ¬P c) :
    namedMask mask (fun c => decide (P c)) = 0 :=
  namedMask_eq_zero.mpr fun c hc => decide_eq_false (h c hc)

theorem ne_zero_of_named {P : Chan → Prop} (h : ∃ c ∈ maskChannels mask, P c) : mask ≠ 0 := by
  rintro rfl
  obtain ⟨c, hc, -⟩ := h
  simp [mem_maskChannels] at hc

/-! ### What RUN answers -/

theorem Condition.ofCode_of_le {k : Nat} (h : k ≤ 15) (negated : Bool) : ∃ q, Condition.ofCode k negated = some q := by
  cases ho : Operand.ofCode k with
  | none => exact absurd (Operand.ofCode_eq_none.mp ho) (Nat.not_lt.mpr h)
  | some o => exact ⟨⟨o, negated⟩, by rw [Condition.ofCode, ho]; rfl⟩

theorem boolOfCode_of_le {b : Byte} (h : b.toNat ≤ 1) : ∃ v, boolOfCode b = some v := by
  have hb : b = 0 ∨ b = 1 := by bv_omega
  rcases hb with rfl | rfl
  · exact ⟨false, rfl⟩
  · exact ⟨true, rfl⟩

theorem takeRun_eq {b : Bool} (hq : Condition.ofCode code.toNat (sense == 1) = some q)
    (hb : boolOfCode sense = some b) (hm : mask ≠ 0) : takeRun mask first code sense s =
      let notIdle := namedMask mask fun c => decide ((s.engine c).run ≠ .idle)
      let noWindow := namedMask mask fun c => decide (s.windowSize c = 0)
      let tooSmall := namedMask mask fun c => decide (s.windowSize c ≤ first.toNat)
      let t := s.runChannels mask first.toNat q
      if notIdle ≠ 0 then (s, [0x13, notIdle])
      else if noWindow ≠ 0 then (s, [0x14, noWindow])
      else if tooSmall ≠ 0 then (s, [0x05, tooSmall])
      else (t, [0x00, namedMask mask fun c => decide ((t.engine c).run ≠ .armed)]) := by
  unfold takeRun
  simp only [hq, hb, if_neg hm]
  rfl

theorem exec_run (ho : s.open = true) : exec (.run tag mask first code sense) s =
    .next ((takeRun mask first code sense s).1.withReply 0x38 tag (takeRun mask first code sense s).2) := by
  rw [exec_open (take := takeRun mask first code sense) rfl rfl rfl ho]

/-- R83: RUN of IDLE channels with the start index in their windows. -/
theorem exec_run_ok (ho : s.open = true) (hq : Condition.ofCode code.toNat q.negated = some q) (hm : mask ≠ 0)
    (h : ∀ c ∈ maskChannels mask, (s.engine c).run = .idle ∧ first.toNat < s.windowSize c) :
    exec (.run tag mask first code (if q.negated then 1 else 0)) s =
      .next ((s.runChannels mask first.toNat q).withReply 0x38 tag
        [0x00, namedMask mask fun c => decide (((s.runChannels mask first.toNat q).engine c).run ≠ .armed)]) := by
  have hsense : ((if q.negated then 1 else 0 : Byte) == 1) = q.negated ∧
      boolOfCode (if q.negated then 1 else 0) = some q.negated := by
    cases q.negated <;> decide
  have hidle : namedMask mask (fun c => decide ((s.engine c).run ≠ .idle)) = 0 :=
    namedMask_eq_zero.mpr fun c hc => by simp [(h c hc).1]
  have hwindow : namedMask mask (fun c => decide (s.windowSize c = 0)) = 0 :=
    namedMask_eq_zero.mpr fun c hc => decide_eq_false (Nat.ne_zero_of_lt (h c hc).2)
  have hfits : namedMask mask (fun c => decide (s.windowSize c ≤ first.toNat)) = 0 :=
    namedMask_eq_zero.mpr fun c hc => decide_eq_false (Nat.not_le.mpr (h c hc).2)
  rw [exec_run ho, takeRun_eq (hsense.1.symm ▸ hq) hsense.2 hm]
  simp only [hidle, hwindow, hfits, ne_eq, not_true_eq_false, if_false]

/-! ### The named channels as they are armed -/

/-- R83, R145: the state of a RUN before its start tests. -/
def State.armedBy (s : State) (mask : Byte) (start : Nat) (q : Condition) : State :=
  (maskChannels mask).foldl (fun u c => u.armChannel start q c)
    (s.withdraw ((maskChannels mask).map Instr.samplePeriod ++ (maskChannels mask).map Instr.operandChange))

theorem State.runChannels_eq (s : State) (mask : Byte) (start : Nat) (q : Condition) : s.runChannels mask start q =
    (maskChannels mask).foldl (fun u c => u.startTest c) (s.armedBy mask start q) := rfl

theorem State.chan_armedBy {start : Nat} (h : c ∈ maskChannels mask) :
    (s.armedBy mask start q).chan c = (s.chan c).prepared s.clock.hold start q :=
  ((s.prepared_eq mask start q).1 c).trans (if_pos h)

theorem State.engine_armedBy {start : Nat} (h : c ∈ maskChannels mask) :
    (s.armedBy mask start q).engine c = ((s.chan c).prepared s.clock.hold start q).engine :=
  congrArg Channel.engine (State.chan_armedBy h)

/-- R67: a test of any operand but LAST reads at a channel just armed what it read before. -/
theorem State.operand_armedBy {start : Nat} {o : Operand} (h : c ∈ maskChannels mask) (ho : o ≠ .last) :
    (s.armedBy mask start q).operand c o = s.operand c o := by
  have hflags : (s.armedBy mask start q).flags = s.flags := by
    rw [State.armedBy, (s.prepared_eq mask start q).2]
  cases o <;>
    simp_all [State.operand, State.latches, State.timer, State.chan_armedBy h, Channel.prepared]

/-! ### The start tests -/

/-- R84: the channel is ARMED with the condition and makes its start test. -/
structure State.Tests (s : State) (q : Condition) (c : Chan) : Prop where
  armed : (s.engine c).run = .armed
  free : (s.engine c).held = false
  condition : (s.engine c).start = some q

theorem State.Tests.of_chan {t : State} (h : s.Tests q c) (ht : t.chan c = s.chan c) : t.Tests q c := by
  have hengine : t.engine c = s.engine c := congrArg Channel.engine ht
  exact ⟨hengine ▸ h.armed, hengine ▸ h.free, hengine ▸ h.condition⟩

theorem State.tests_armedBy {start : Nat} (hhold : s.clock.hold = false) (h : c ∈ maskChannels mask) :
    (s.armedBy mask start q).Tests q c := by
  constructor <;> rw [State.engine_armedBy h]
  · rfl
  · exact hhold
  · rfl

/-- R84, R116: one start test, which adds the channel to the mask of those that started. -/
def startOne (q : Condition) (x : State × Byte) (c : Chan) : State × Byte :=
  if x.1.operand c q.operand = q.negated then x
  else ((x.1.tested c q).startChannel c, x.2 ||| onlyChan c)

theorem startOne_fst {x : State × Byte} (h : x.1.Tests q c) : (startOne q x c).1 = x.1.startTest c := by
  unfold startOne
  split
  · next hf => exact (State.startTest_false h.armed h.free h.condition hf).symm
  · next ht => exact (State.startTest_true h.armed h.free h.condition ht).symm

theorem chan_startOne_ne {x : State × Byte} (h : c ≠ d) : (startOne q x c).1.chan d = x.1.chan d := by
  unfold startOne
  split
  · rfl
  · next ht =>
    have htested := x.1.chan_test_ne h q
    rw [State.test_true ht] at htested
    exact (State.chan_startChannel_ne _ h).trans htested

/-- R84: the channels that a start test adds to the mask are those that are ARMED no more. -/
theorem getLsbD_startOne {x : State × Byte} (h : x.1.Tests q c) (d : Chan) :
    (startOne q x c).2.getLsbD d.val =
      (x.2.getLsbD d.val || decide (d = c ∧ ((startOne q x c).1.engine c).run ≠ .armed)) := by
  unfold startOne
  split
  · simp [h.armed]
  · rw [BitVec.getLsbD_or, getLsbD_onlyChan]
    by_cases hd : d = c <;> simp [hd, State.run_startChannel]

/-- R84: the start tests of channels that make one: the state of the tests in turn, and the mask of those that
are ARMED no more. -/
theorem foldl_startOne (l : List Chan) (hl : l.Nodup) (x : State × Byte) (h : ∀ c ∈ l, x.1.Tests q c) :
    (l.foldl (startOne q) x).1 = l.foldl (fun u c => u.startTest c) x.1 ∧
    (∀ d, d ∉ l → (l.foldl (startOne q) x).1.chan d = x.1.chan d) ∧
    ∀ d : Chan, (l.foldl (startOne q) x).2.getLsbD d.val =
      (x.2.getLsbD d.val || decide (d ∈ l ∧ ((l.foldl (startOne q) x).1.engine d).run ≠ .armed)) := by
  induction l generalizing x with
  | nil => simp
  | cons c l ih =>
    obtain ⟨hc, hl⟩ := List.nodup_cons.mp hl
    have htests : x.1.Tests q c := h c List.mem_cons_self
    obtain ⟨hstate, hothers, hmask⟩ := ih hl (startOne q x c) fun d hd =>
      (h d (List.mem_cons_of_mem c hd)).of_chan (chan_startOne_ne fun hcd => hc (hcd ▸ hd))
    refine ⟨?_, fun d hd => ?_, fun d => ?_⟩
    · rw [List.foldl_cons, hstate, startOne_fst htests, List.foldl_cons]
    · obtain ⟨hdc, hdl⟩ := not_or.mp (mt List.mem_cons.mpr hd)
      exact (hothers d hdl).trans (chan_startOne_ne (Ne.symm hdc))
    · rw [List.foldl_cons, hmask, getLsbD_startOne htests, Bool.or_assoc]
      by_cases hdc : d = c
      · subst hdc
        have hrun : (l.foldl (startOne q) (startOne q x d)).1.engine d = (startOne q x d).1.engine d :=
          congrArg Channel.engine (hothers d hc)
        simp [hrun, hc]
      · simp [hdc]

/-- R84: with ALWAYS each channel starts. -/
theorem foldl_startOne_always (l : List Chan) (u : State) (m : Byte) :
    l.foldl (startOne ⟨.always, false⟩) (u, m) =
      (l.foldl (fun u c => u.startChannel c) u, l.foldl (fun n c => n ||| onlyChan c) m) := by
  induction l generalizing u m with
  | nil => rfl
  | cons c l ih => exact ih _ _

/-- R83, R84: RUN with the hold dropped: the start tests of the armed channels, and the mask of those that
started. -/
theorem exec_run_tests (ho : s.open = true) (hq : Condition.ofCode code.toNat q.negated = some q) (hm : mask ≠ 0)
    (h : ∀ c ∈ maskChannels mask, (s.engine c).run = .idle ∧ first.toNat < s.windowSize c)
    (hhold : s.clock.hold = false) :
    let x := (maskChannels mask).foldl (startOne q) (s.armedBy mask first.toNat q, 0)
    exec (.run tag mask first code (if q.negated then 1 else 0)) s =
      .next (x.1.withReply 0x38 tag [0x00, x.2]) := by
  intro x
  obtain ⟨hstate, -, hmask⟩ := foldl_startOne (maskChannels mask) (nodup_maskChannels mask)
    (s.armedBy mask first.toNat q, 0) fun c hc => State.tests_armedBy hhold hc
  have hran : s.runChannels mask first.toNat q = x.1 := (s.runChannels_eq mask first.toNat q).trans hstate.symm
  have hstarted : namedMask mask (fun c => decide ((x.1.engine c).run ≠ .armed)) = x.2 :=
    mask_ext fun d => by
      rw [namedMask, getLsbD_maskOf, hmask]
      simp [mem_maskChannels, x]
  rw [exec_run_ok ho hq hm h, hran, hstarted]

/-- R83, R84: RUN whose start tests leave every channel as it was armed. -/
theorem exec_run_waits (ho : s.open = true) (hq : Condition.ofCode code.toNat q.negated = some q) (hm : mask ≠ 0)
    (h : ∀ c ∈ maskChannels mask, (s.engine c).run = .idle ∧ first.toNat < s.windowSize c)
    (hwaits : ∀ c ∈ maskChannels mask,
      (s.armedBy mask first.toNat q).startTest c = s.armedBy mask first.toNat q) :
    exec (.run tag mask first code (if q.negated then 1 else 0)) s =
      .next ((s.armedBy mask first.toNat q).withReply 0x38 tag [0x00, 0x00]) := by
  have hran : s.runChannels mask first.toNat q = s.armedBy mask first.toNat q :=
    List.foldlRecOn (motive := (· = s.armedBy mask first.toNat q)) _ _ rfl fun u hu c hc =>
      hu.symm ▸ hwaits c hc
  have hnone : namedMask mask
      (fun c => decide (((s.armedBy mask first.toNat q).engine c).run ≠ .armed)) = 0 :=
    namedMask_eq_zero.mpr fun c hc => by
      rw [State.engine_armedBy hc]
      rfl
  rw [exec_run_ok ho hq hm h, hran, hnone]

end Sys2Proof.Machine

namespace Sys2Proof.Proofs
open Machine

/-- Settles O30: the named channels as armed, then the start tests one by one; the refusals by the mask that is
not zero. -/
theorem runArmsOrRefuses : Obligations.RunArmsOrRefuses := by
  refine ⟨fun tag mask code first q s ho hq hm hok => ?_, fun c s => State.startsTo_startChannel s c,
    fun tag mask code sense first s ho hcode hsense => ?_⟩
  · intro arms
    have harms : arms (s.armedBy mask first.toNat q) := by
      obtain ⟨hchan, hrest⟩ := s.prepared_eq mask first.toNat q
      exact ⟨fun c hc => (hchan c).trans (if_pos hc), fun c hc => (hchan c).trans (if_neg hc), hrest⟩
    refine ⟨fun hwaits => ⟨_, exec_run_waits ho hq hm hok fun c hc => ?_, harms⟩,
      fun hhold halways => ⟨_, harms, ?_⟩, fun hhold => ⟨_, harms, exec_run_tests ho hq hm hok hhold⟩⟩
    · cases hhold : s.clock.hold with
      | true => exact State.startTest_held (by rw [State.engine_armedBy hc]; exact hhold)
      | false =>
        obtain ⟨hlast, hfalse⟩ := hwaits.resolve_left (by simp [hhold])
        obtain ⟨harmed, hfree, hcondition⟩ := State.tests_armedBy (start := first.toNat) (q := q) hhold hc
        exact State.startTest_false harmed hfree hcondition ((State.operand_armedBy hc hlast).trans (hfalse c hc))
    · subst halways
      have htests := exec_run_tests (tag := tag) ho hq hm hok hhold
      rwa [foldl_startOne_always, foldl_onlyChan_maskChannels] at htests
  · intro named
    obtain ⟨q, hq⟩ := Condition.ofCode_of_le hcode (sense == 1)
    obtain ⟨b, hb⟩ := boolOfCode_of_le hsense
    refine ⟨fun hsome => ?_, fun hidle => ⟨fun hsome => ?_, fun hwindow hsome => ?_⟩⟩
    all_goals rw [exec_run ho, takeRun_eq hq hb (ne_zero_of_named hsome)]
    · simp only [if_pos (namedMask_ne_zero hsome)]
      rfl
    · have hnone := namedMask_eq_zero_of_not fun c hc => not_not.mpr (hidle c hc)
      simp only [hnone, ne_eq, not_true_eq_false, if_false, if_pos (namedMask_ne_zero hsome)]
      rfl
    · have hnone := namedMask_eq_zero_of_not fun c hc => not_not.mpr (hidle c hc)
      have hloaded := namedMask_eq_zero_of_not hwindow
      simp only [hnone, hloaded, ne_eq, not_true_eq_false, if_false, if_pos (namedMask_ne_zero hsome)]
      rfl

end Sys2Proof.Proofs
end

section
/-!
The tap events and the expiry of a timer (R146, R149, R150, R188): the timers and the walk that a tap lowers,
and the expiry of one timer, which may be taken after the other timers of the same tap.
-/
namespace Sys2Proof.Machine

variable {s : State} {c d : Chan} {tap : Fin 8} {k : Fin 7}

/-! ### The expiry of a timer (R150) -/

/-- R150: everything that an expiry writes: the timer, a notice, an operand change. -/
theorem State.expireTimer_eq (s : State) (c : Chan) : s.expireTimer c = { s with
    channels := s.channels.set c
      { s.chan c with timer := { s.timer c with running := false, count := 0, expired := true } }
    link := if (s.timer c).notify = true then s.link.notify (.timer c) else s.link
    handed := s.handed ++ if (s.engine c).standing.map Condition.operand = some .timer then
      [.operandChange c] else [] } := by
  have hnotify : ∀ (b : Bool) (u : State), (if b = true then u.notify (.timer c) else u) =
      { u with link := if b = true then u.link.notify (.timer c) else u.link } := fun b u => by
    cases b <;> rfl
  unfold State.expireTimer
  simp only [hnotify]
  change (match (s.setTimer c _).engine c |>.standing with | some q => _ | none => _) = _
  rw [State.engine_setTimer]
  cases (s.engine c).standing with
  | none => simp [State.setTimer, State.setChan]
  | some q => by_cases hq : q.operand = .timer <;> simp [hq, State.setTimer, State.setChan, State.hand]

/-- R150: an expiry at one channel and a change of another may be taken in either order. -/
theorem State.setChan_expireTimer (h : d ≠ c) (x : Channel) :
    (s.expireTimer d).setChan c x = (s.setChan c x).expireTimer d := by
  have hchan : (s.setChan c x).chan d = s.chan d := State.chan_setChan_ne s h.symm x
  rw [State.expireTimer_eq, State.expireTimer_eq]
  simp only [State.timer, State.engine, hchan]
  simp only [State.setChan]
  rw [Vector.set_comm _ _ fun hval => h (Fin.ext hval)]
  rfl

/-! ### Timers that a tap lowers (R149) -/

/-- R149: a tap event does not bring the timer to 0. -/
def Timer.Outlasts (t : Timer) (tap : Fin 8) : Prop := t.running = true → t.tap = tap → 1 < t.count

/-- R149: a channel after a tap event that does not bring its timer to 0. -/
def Channel.lowered (x : Channel) (tap : Fin 8) : Channel :=
  if x.timer.running = true ∧ x.timer.tap = tap then
    { x with timer := { x.timer with count := x.timer.count - 1 } }
  else x

theorem State.tapTimer_lowers (h : (s.chan c).timer.Outlasts tap) :
    s.tapTimer c tap = s.setChan c ((s.chan c).lowered tap) := by
  rw [State.tapTimer_eq s c tap h, Channel.lowered]
  by_cases hc : (s.chan c).timer.running = true ∧ (s.chan c).timer.tap = tap
  · rw [if_pos hc]
    exact if_pos hc
  · rw [if_neg hc, State.setChan_chan]
    exact if_neg hc

/-- R149: a tap at channels whose timers outlast it. -/
theorem State.foldl_tapTimer (l : List Chan) (hl : l.Nodup) (h : ∀ c ∈ l, (s.chan c).timer.Outlasts tap) :
    (∀ d, (l.foldl (fun u c => u.tapTimer c tap) s).chan d =
      if d ∈ l then (s.chan d).lowered tap else s.chan d) ∧
    l.foldl (fun u c => u.tapTimer c tap) s =
      { s with channels := (l.foldl (fun u c => u.tapTimer c tap) s).channels } :=
  s.foldl_local (fun c => (s.chan c).lowered tap) (fun c u => u.tapTimer c tap) l hl fun c hc u _ hu => by
    rw [State.tapTimer_lowers (hu.symm ▸ h c hc), hu]

/-- R149, R150: an expiry may be taken after the timers of other channels that outlast the tap. -/
theorem State.foldl_tapTimer_expireTimer (l : List Chan) (hl : l.Nodup) (hd : d ∉ l)
    (h : ∀ c ∈ l, (s.chan c).timer.Outlasts tap) :
    l.foldl (fun u c => u.tapTimer c tap) (s.expireTimer d) =
      (l.foldl (fun u c => u.tapTimer c tap) s).expireTimer d := by
  induction l generalizing s with
  | nil => rfl
  | cons c l ih =>
    obtain ⟨hcl, hl⟩ := List.nodup_cons.mp hl
    obtain ⟨hdc, hdl⟩ := not_or.mp (mt List.mem_cons.mpr hd)
    have hc : (s.chan c).timer.Outlasts tap := h c List.mem_cons_self
    have hchan : (s.expireTimer d).chan c = s.chan c :=
      (s.chan_expireTimer d c).trans (if_neg (Ne.symm hdc))
    have hswap : (s.expireTimer d).tapTimer c tap = (s.tapTimer c tap).expireTimer d := by
      rw [State.tapTimer_lowers (hchan.symm ▸ hc), State.tapTimer_lowers hc, hchan,
        State.setChan_expireTimer hdc]
    rw [List.foldl_cons, hswap, List.foldl_cons]
    refine ih hl hdl fun e he => ?_
    have hce : c ≠ e := fun hce => hcl (hce ▸ he)
    rw [State.tapTimer_lowers hc, State.chan_setChan_ne s hce]
    exact h e (List.mem_cons_of_mem c he)

/-- R149, R150: where one timer alone is brought to 0, its expiry may be taken after the other timers. -/
theorem State.foldl_tapTimer_erase (l : List Chan) (hl : l.Nodup) (hd : d ∈ l)
    (hrunning : (s.timer d).running = true) (htap : (s.timer d).tap = tap) (hcount : (s.timer d).count ≤ 1)
    (h : ∀ c ∈ l, c ≠ d → (s.chan c).timer.Outlasts tap) :
    l.foldl (fun u c => u.tapTimer c tap) s =
      ((l.erase d).foldl (fun u c => u.tapTimer c tap) s).expireTimer d := by
  induction l generalizing s with
  | nil => exact absurd hd List.not_mem_nil
  | cons c l ih =>
    obtain ⟨hcl, hl⟩ := List.nodup_cons.mp hl
    by_cases hcd : c = d
    · subst hcd
      rw [List.foldl_cons, List.erase_cons_head, State.tapTimer_expires hrunning htap hcount]
      exact State.foldl_tapTimer_expireTimer l hl hcl fun e he =>
        h e (List.mem_cons_of_mem c he) fun hec => hcl (hec ▸ he)
    · have hchan : ∀ e, c ≠ e → (s.tapTimer c tap).chan e = s.chan e := fun e hce => by
        rw [State.tapTimer_lowers (h c List.mem_cons_self hcd), State.chan_setChan_ne s hce]
      have htimer : (s.tapTimer c tap).timer d = s.timer d := congrArg Channel.timer (hchan d hcd)
      rw [List.foldl_cons, List.erase_cons_tail (by simpa using hcd), List.foldl_cons]
      refine ih hl ((List.mem_cons.mp hd).resolve_left (Ne.symm hcd)) (htimer ▸ hrunning)
        (htimer ▸ htap) (htimer ▸ hcount) fun e he hed => ?_
      rw [hchan e fun hce => hcl (hce ▸ he)]
      exact h e (List.mem_cons_of_mem c he) hed

/-! ### The walk (R188) and the tap event -/

/-- R188: the scanner after a tap event that does not end the interval of its walk. -/
def Scanner.lowered (x : Scanner) (k : Fin 7) : Scanner :=
  if k = 3 ∧ x.counting = true then { x with intervalRemaining := x.intervalRemaining.map (· - 1) }
  else x

/-- R188: a tap event does not end the interval of the walk. -/
def Scanner.Outlasts (x : Scanner) (k : Fin 7) : Prop :=
  k = 3 → x.counting = true → ∀ n, x.intervalRemaining = some n → 1 < n

theorem State.walkTick_lowers (h : s.scanner.Outlasts 3) :
    s.walkTick = { s with scanner := s.scanner.lowered 3 } := by
  unfold State.walkTick Scanner.lowered
  by_cases hcounts : s.scanner.counting = true
  · rw [if_pos hcounts, if_pos ⟨rfl, hcounts⟩]
    cases hn : s.scanner.intervalRemaining with
    | none =>
      have hsame : s = { s with scanner := { s.scanner with intervalRemaining := none } } := by rw [← hn]
      exact hsame
    | some n => exact if_neg (Nat.not_le.mpr (h rfl hcounts n hn))
  · rw [if_neg hcounts, if_neg fun hboth => hcounts hboth.2]

/-- R146: a tap that does not end the walk's interval reaches the timers, and T3 the walk. -/
theorem State.tap_eq {t : State} (ht : (s.eachChannel fun c u => u.tapTimer c (tapOf k)) = t)
    (h : t.scanner.Outlasts k) : s.tap k = { t with scanner := t.scanner.lowered k } := by
  unfold State.tap
  rw [ht]
  by_cases hk : k = 3
  · subst hk
    exact t.walkTick_lowers h
  · rw [if_neg hk, Scanner.lowered, if_neg fun hboth => hk hboth.1]

/-- R149, R188: a tap that neither a timer nor the walk's interval ends at. -/
theorem State.tap_lowers (hwalk : s.scanner.Outlasts k) (h : ∀ c, (s.chan c).timer.Outlasts (tapOf k)) :
    (∀ c, (s.tap k).chan c = (s.chan c).lowered (tapOf k)) ∧
    s.tap k = { s with channels := (s.tap k).channels, scanner := s.scanner.lowered k } := by
  obtain ⟨hchan, hframe⟩ := s.foldl_tapTimer allChannels nodup_allChannels fun c _ => h c
  have htap := fun t => State.tap_eq (s := s) (k := k) (t := t)
  unfold State.eachChannel at htap
  generalize allChannels.foldl (fun u c => u.tapTimer c (tapOf k)) s = u at hchan hframe htap
  obtain ⟨channels, rfl⟩ : ∃ channels, u = { s with channels := channels } := ⟨_, hframe⟩
  rw [htap _ rfl hwalk]
  exact ⟨fun c => (hchan c).trans (if_pos (mem_allChannels c)), rfl⟩

/-- R149, R150, R188: a tap that brings one timer to 0: the other timers and the walk are lowered, and the timer
expires. -/
theorem State.tap_expires (hwalk : s.scanner.Outlasts k) (hrunning : (s.timer d).running = true)
    (htap : (s.timer d).tap = tapOf k) (hcount : (s.timer d).count ≤ 1)
    (h : ∀ c, c ≠ d → (s.chan c).timer.Outlasts (tapOf k)) :
    ∃ t : State, s.tap k = t.expireTimer d ∧ t.chan d = s.chan d ∧
      (∀ c, c ≠ d → t.chan c = (s.chan c).lowered (tapOf k)) ∧
      t = { s with channels := t.channels, scanner := s.scanner.lowered k } := by
  have hmem : ∀ c, c ∈ allChannels.erase d ↔ c ≠ d := fun c => by
    rw [nodup_allChannels.mem_erase_iff, and_iff_left (mem_allChannels c)]
  obtain ⟨hchan, hframe⟩ := s.foldl_tapTimer (allChannels.erase d) (nodup_allChannels.erase d)
    fun c hc => h c ((hmem c).mp hc)
  have htimers := s.foldl_tapTimer_erase allChannels nodup_allChannels (mem_allChannels d) hrunning htap hcount
    fun c _ => h c
  generalize (allChannels.erase d).foldl (fun u c => u.tapTimer c (tapOf k)) s = u at hchan hframe htimers
  obtain ⟨channels, rfl⟩ : ∃ channels, u = { s with channels := channels } := ⟨_, hframe⟩
  refine ⟨{ s with channels := channels, scanner := s.scanner.lowered k }, ?_,
    (hchan d).trans (if_neg fun hd => (hmem d).mp hd rfl),
    fun c hc => (hchan c).trans (if_pos ((hmem c).mpr hc)), rfl⟩
  rw [State.expireTimer_eq] at htimers
  rw [State.tap_eq htimers hwalk, State.expireTimer_eq]
  rfl

/-! ### Tap events as commands (R141, R146, log entries 6 and 13) -/

theorem exec_timeBaseTap (hlive : s.inReset = false) :
    exec (.timeBaseTap k) s = .next (s.tapEvent k).transmit := event_live _ hlive

theorem State.tapEvent_held (h : s.clock.hold = true) : s.tapEvent k = s := by
  simp [State.tapEvent, State.admits, h]

theorem State.tapEvent_handed (hhold : s.clock.hold = false) (hh : .timeBaseTap k ∈ s.handed) :
    s.tapEvent k = (s.taken (.timeBaseTap k)).tap k := by
  simp [State.tapEvent, State.admits, hhold, hh]

theorem State.tapEvent_divides (hhold : s.clock.hold = false) (hh : .timeBaseTap k ∉ s.handed) :
    s.tapEvent k = (s.divide k).tap k := by
  simp [State.tapEvent, State.admits, hhold, hh]

theorem exec_timerExpiry (hlive : s.inReset = false) : exec (.timerExpiry c) s =
    .next (((s.timer c).lastTap?.elim s s.tapEvent).transmit) := by
  change execTimerExpiry c s = _
  rw [execTimerExpiry, event_live _ hlive]
  cases (s.timer c).lastTap? <;> rfl

theorem Timer.lastTap?_some {t : Timer} (hrunning : t.running = true) (hcount : t.count ≤ 1)
    (htap : t.tap.val = k.val) : t.lastTap? = some k := by
  simp [Timer.lastTap?, dividedTap?, hrunning, hcount, htap]

theorem Timer.lastTap?_none {t : Timer} (h : t.running = false ∨ 1 < t.count ∨ t.tap = 7) :
    t.lastTap? = none := by
  unfold Timer.lastTap?
  rcases h with h | h | h
  · rw [h]
    rfl
  · rw [decide_eq_false (Nat.not_le.mpr h), Bool.and_false]
    rfl
  · rw [h]
    exact ite_self _

end Sys2Proof.Machine

namespace Sys2Proof.Proofs
open Machine

/-- Settles O28, by the tap that lowers the timers which outlast it, the expiry of the one that does not, and
what an expiry writes. -/
theorem tapEventsAndTimerExpiry : Obligations.TapEventsAndTimerExpiry := by
  refine ⟨fun k s hlive => ?_, fun c s => ?_, fun c s hlive => ⟨fun k hrunning hcount htap => ?_, fun h => ?_⟩⟩
  · intro counts lowered rest
    have hcounts : ∀ c, counts c ↔ (s.chan c).timer.running = true ∧ (s.chan c).timer.tap = tapOf k :=
      fun c => and_congr_right fun _ => (Fin.ext_iff (b := tapOf k)).symm
    have hlowered : ∀ c, ∀ x, x = (s.chan c).lowered (tapOf k) →
        (counts c → x = lowered c) ∧ (¬counts c → x = s.chan c) := fun c x hx =>
      ⟨fun h => hx.trans (if_pos ((hcounts c).mp h)), fun h => hx.trans (if_neg (mt (hcounts c).mpr h))⟩
    have houtlasts : ∀ c, (counts c → 1 < (s.timer c).count) → (s.chan c).timer.Outlasts (tapOf k) :=
      fun c h hrunning htap => h ((hcounts c).mpr ⟨hrunning, htap⟩)
    refine ⟨fun hhold => ?_, fun hhold hnew => ?_, fun hhold hhanded hwalk => ?_⟩
    · rw [exec_timeBaseTap hlive, State.tapEvent_held hhold]
    · intro p
      rw [exec_timeBaseTap hlive, exec_timeBaseTap (by exact hlive), State.tapEvent_divides hhold hnew,
        State.tapEvent_handed (by exact hhold) List.mem_cons_self]
      simp only [State.divide, State.taken, tapsAt_erase, List.erase_cons_head]
      rfl
    · rw [exec_timeBaseTap hlive, State.tapEvent_handed hhold hhanded]
      refine ⟨fun hall => ?_, fun d hd hlast hothers => ?_⟩
      · obtain ⟨hchan, hframe⟩ := State.tap_lowers (s := s.taken (.timeBaseTap k)) hwalk
          fun c => houtlasts c (hall c)
        exact ⟨_, rfl, fun c => hlowered c _ (hchan c), hframe⟩
      · obtain ⟨hrunning, htap⟩ := (hcounts d).mp hd
        obtain ⟨t, ht, hself, hchan, hframe⟩ := State.tap_expires (s := s.taken (.timeBaseTap k)) hwalk
          hrunning htap hlast fun c hc => houtlasts c (hothers c hc)
        exact ⟨t, by rw [ht], hself, fun c hc => hlowered c _ (hchan c hc), hframe⟩
  · rw [State.expireTimer_eq]
    by_cases hreads : (s.engine c).standing.map Condition.operand = some .timer
    · simp only [hreads, if_true]
      cases (s.timer c).notify <;> rfl
    · simp only [hreads, if_false, List.append_nil]
      cases (s.timer c).notify <;> rfl
  · rw [exec_timerExpiry hlive, Timer.lastTap?_some hrunning hcount htap, exec_timeBaseTap hlive]
    rfl
  · rw [exec_timerExpiry hlive, Timer.lastTap?_none h]
    rfl

end Sys2Proof.Proofs
end

section
/-!
SET FLAGS, FIRE TRIGGER and SET ROUTE (R120, R121, R123, R124, R125): the flags as one write, the software
latches, and the operand changes that each hands on; the codes of a routing and of its edges.
-/
namespace Sys2Proof.Machine

variable {s u : State} {c : Chan} {tag x y z routing present : Byte} {edges p : List Byte}

/-! ### SET FLAGS (R123, R124) -/

/-- R125: the operand is a flag that changed. -/
def Operand.flagChanged (changed : Byte) : Operand → Bool
  | .flag n => changed.getLsbD n.val
  | _ => false

/-- R124, R125: one write of the flags hands an operand change to the channels that test a flag it changes. -/
theorem State.writeFlags_eq (s : State) (flags : Byte) : s.writeFlags flags = { s with
    flags := flags
    handed := s.handed ++ (allChannels.filter fun d => (s.engine d).standing.any fun q =>
      q.operand.flagChanged (flags ^^^ s.flags)).map Instr.operandChange } :=
  State.handChanges_eq { s with flags := flags } fun _ o => o.flagChanged (flags ^^^ s.flags)

/-- R124: the flags after a SET FLAGS that names no flag twice. -/
def flagsAfter (flags x y z : Byte) : Byte := ((flags ||| x) &&& ~~~y) ^^^ z

theorem getLsbD_flagsAfter (flags : Byte) (h : (x &&& y) ||| (x &&& z) ||| (y &&& z) = 0) (n : Fin 8) :
    (flagsAfter flags x y z).getLsbD n.val =
      if x.getLsbD n.val then true else if y.getLsbD n.val then false
      else if z.getLsbD n.val then !flags.getLsbD n.val else flags.getLsbD n.val := by
  have hbits : ∀ f a b c : Bool, ((a && b) || (a && c) || (b && c)) = false →
      (((f || a) && !b) ^^ c) = if a then true else if b then false else if c then !f else f := by decide
  have honce := congrArg (fun w : Byte => w.getLsbD n.val) h
  simp only [BitVec.getLsbD_or, BitVec.getLsbD_and] at honce
  rw [← hbits _ _ _ _ (honce.trans BitVec.getLsbD_zero)]
  simp [flagsAfter]

theorem takeSetFlags_range (h : (x &&& y) ||| (x &&& z) ||| (y &&& z) ≠ 0) :
    takeSetFlags x y z s = refuse .range s := if_pos h

theorem takeSetFlags_once (h : (x &&& y) ||| (x &&& z) ||| (y &&& z) = 0) :
    takeSetFlags x y z s = (s.writeFlags (flagsAfter s.flags x y z),
      [0x00, flagsAfter s.flags x y z, flagsAfter s.flags x y z ^^^ s.flags]) := if_neg (not_not.mpr h)

theorem exec_setFlags (ho : s.open = true) (ht : takeSetFlags x y z s = (u, p)) :
    exec (.setFlags tag x y z) s = .next (u.withReply 0x40 tag p) := by
  rw [exec_open (take := takeSetFlags x y z) rfl rfl rfl ho, ht]

/-! ### FIRE TRIGGER (R121) -/

/-- R121: a channel after the software trigger: its latch is set where it is named and active. -/
def Channel.fired (x : Channel) (named : Bool) : Channel :=
  if named = true ∧ x.engine.run.active = true then
    { x with latches := { x.latches with soft := true } }
  else x

/-- R121: a software trigger sets latches alone, so that the standing tests are those from before it. -/
theorem Channel.engine_fired (x : Channel) (named : Bool) : (x.fired named).engine = x.engine := by
  unfold Channel.fired
  split <;> rfl

/-- R121, R125: the software trigger sets latches, and hands an operand change to the channels that test the latch
it set; nothing else changes. -/
theorem State.softwareTrigger_spec (s : State) (mask : Byte) :
    (∀ d, (s.softwareTrigger mask).chan d = (s.chan d).fired (mask.getLsbD d.val)) ∧
    (s.softwareTrigger mask).handed = s.handed ++ (allChannels.filter fun d =>
      s.hearsSoftware mask d && (s.engine d).standing.any fun q => q.operand == .soft).map
        Instr.operandChange ∧
    s.softwareTrigger mask = { s with
      channels := (s.softwareTrigger mask).channels, handed := (s.softwareTrigger mask).handed } := by
  obtain ⟨hchan, hframe⟩ := s.eachChannel_local (fun c => (s.chan c).fired (mask.getLsbD c.val))
    (fun c u => if u.hearsSoftware mask c then u.setLatches c { u.latches c with soft := true } else u)
    fun c u _ hc => by
      rw [← hc, Channel.fired, apply_ite (u.setChan c), State.setChan_chan]
      simp only [State.hearsSoftware, Bool.and_eq_true]
      rfl
  unfold State.softwareTrigger
  generalize (s.eachChannel fun c u => if u.hearsSoftware mask c then
    u.setLatches c { u.latches c with soft := true } else u) = u at hchan hframe
  have hengine : u.engine = s.engine := funext fun d =>
    (congrArg Channel.engine (hchan d)).trans (Channel.engine_fired _ _)
  have hreads : ∀ d, ((s.engine d).standing.any fun q => s.hearsSoftware mask d && q.operand == .soft) =
      (s.hearsSoftware mask d && (s.engine d).standing.any fun q => q.operand == .soft) := fun d => by
    cases s.hearsSoftware mask d <;> cases (s.engine d).standing <;> rfl
  simp only [State.handChanges_eq, hengine, hreads]
  obtain ⟨channels, rfl⟩ : ∃ channels, u = { s with channels := channels } := ⟨_, hframe⟩
  exact ⟨hchan, rfl, rfl⟩

theorem takeFireTrigger_named (h : x ≠ 0) : takeFireTrigger x s =
    (s.softwareTrigger x, [0x00, maskOf fun d => s.hearsSoftware x d]) := if_neg h

theorem exec_fireTrigger (ho : s.open = true) (ht : takeFireTrigger x s = (u, p)) :
    exec (.fireTrigger tag x) s = .next (u.withReply 0x41 tag p) := by
  rw [exec_open (take := takeFireTrigger x) rfl rfl rfl ho, ht]

/-! ### SET ROUTE (R120) -/

theorem boolOfCode_eq_none {b : Byte} : boolOfCode b = none ↔ 1 < b.toNat := by
  revert b
  decide

theorem boolOfCode_bit (b : Bool) : boolOfCode (if b then 1 else 0) = some b := by
  cases b <;> rfl

/-- R206: the codes of four edges are read back. -/
theorem edgesOf_bits (e : Vector Bool 4) :
    edgesOf [if e[0] then 1 else 0, if e[1] then 1 else 0, if e[2] then 1 else 0, if e[3] then 1 else 0] =
      some e := by
  have he : #v[e[0], e[1], e[2], e[3]] = e := by
    ext i hi
    interval_cases i <;> rfl
  simp only [edgesOf, edgeOfCode, List.getD_cons_zero, List.getD_cons_succ, boolOfCode_bit, he]

/-- R120: an edge code above 1 names no edge. -/
theorem edgesOf_eq_none (hlength : edges.length = 4) (h : ∃ k ∈ edges, 1 < k.toNat) : edgesOf edges = none := by
  obtain ⟨k, hk, hcode⟩ := h
  have hnone := boolOfCode_eq_none.mpr hcode
  match edges, hlength with
  | [a, b, c, d], _ =>
    simp only [edgesOf, edgeOfCode, List.getD_cons_zero, List.getD_cons_succ]
    split
    · next ha hb hc hd =>
      simp only [List.mem_cons, List.not_mem_nil, or_false] at hk
      rcases hk with rfl | rfl | rfl | rfl
      · cases hnone.symm.trans ha
      · cases hnone.symm.trans hb
      · cases hnone.symm.trans hc
      · cases hnone.symm.trans hd
    · rfl

theorem setEdges_eq (lines : Vector TriggerLine 4) (e : Vector Bool 4) : setEdges lines e =
    #v[⟨lines[0].high, e[0]⟩, ⟨lines[1].high, e[1]⟩, ⟨lines[2].high, e[2]⟩, ⟨lines[3].high, e[3]⟩] := rfl

theorem takeSetRoute_routing (h : routing.toNat < 16) : takeSetRoute (BitVec.ofNat 8 c.val) routing 0 edges s =
    (s.setLatches c { s.latches c with routing := routing.setWidth 4 },
      [0x00, routing] ++ s.lines.toList.flatMap fun l => byteOfBool l.falling) := by
  simp only [takeSetRoute, chanOfCode_ofNat]
  rw [show boolOfCode 0 = some false from rfl]
  simp only [if_neg (Nat.not_le.mpr h)]
  rfl

theorem takeSetRoute_edges {e : Vector Bool 4} (h : routing.toNat < 16) (he : edgesOf edges = some e) :
    takeSetRoute (BitVec.ofNat 8 c.val) routing 1 edges s =
    ({ s.setLatches c { s.latches c with routing := routing.setWidth 4 } with lines := setEdges s.lines e },
      [0x00, routing] ++ (setEdges s.lines e).toList.flatMap fun l => byteOfBool l.falling) := by
  simp only [takeSetRoute, chanOfCode_ofNat]
  rw [show boolOfCode 1 = some true from rfl]
  simp only [if_neg (Nat.not_le.mpr h), he]
  rfl

theorem takeSetRoute_range
    (h : 16 ≤ routing.toNat ∨ 1 < present.toNat ∨ (present = 1 ∧ edgesOf edges = none)) :
    takeSetRoute (BitVec.ofNat 8 c.val) routing present edges s = refuse .range s := by
  simp only [takeSetRoute, chanOfCode_ofNat]
  cases hpresent : boolOfCode present with
  | none => rfl
  | some withEdges =>
    by_cases hrouting : 16 ≤ routing.toNat
    · exact if_pos hrouting
    · obtain h | ⟨rfl, he⟩ := h.resolve_left hrouting
      · rw [boolOfCode_eq_none.mpr h] at hpresent
        cases hpresent
      · cases hpresent
        simp only [if_neg hrouting, he]
        rfl

theorem exec_setRoute (ho : s.open = true) (hlength : edges.length = 4)
    (ht : takeSetRoute x routing present edges s = (u, p)) :
    exec (.setRoute tag x routing present edges) s = .next (u.withReply 0x42 tag p) := by
  have hw : (Instr.setRoute tag x routing present edges).wellFormed = true := beq_iff_eq.mpr hlength
  rw [exec_open (take := takeSetRoute x routing present edges) rfl rfl hw ho, ht]

end Sys2Proof.Machine

namespace Sys2Proof.Proofs
open Machine

/-- Settles O51, by the write of the flags, the software trigger and the answers of SET ROUTE. -/
theorem conditionRequests : Obligations.ConditionRequests := by
  intro tag x y z c routing e s ho
  refine ⟨fun htwice => exec_setFlags ho (takeSetFlags_range htwice), fun honce => ?_, exec_fireTrigger ho rfl,
    fun hx => ?_,
    fun hrouting => ⟨exec_setRoute ho rfl (takeSetRoute_routing hrouting),
      (exec_setRoute ho rfl (takeSetRoute_edges hrouting (edgesOf_bits e))).trans ?_⟩,
    fun present edges hlength h => exec_setRoute ho hlength (takeSetRoute_range ?_)⟩
  · rw [exec_setFlags ho (takeSetFlags_once honce), State.writeFlags_eq]
    exact ⟨_, rfl, getLsbD_flagsAfter s.flags honce, rfl, rfl⟩
  · obtain ⟨hchan, hhanded, hframe⟩ := s.softwareTrigger_spec x
    exact ⟨_, exec_fireTrigger ho (takeFireTrigger_named hx), hchan, hhanded, hframe⟩
  · rw [setEdges_eq]
    rfl
  · exact h.imp_right (Or.imp_right (And.imp_right (edgesOf_eq_none hlength)))

end Sys2Proof.Proofs
end

section
/-!
What the work of the blocks stands on: the host's queue, the RESET line, the straps, the count of power-on
resets and the reference clock. The channels, the images, the import, the walk and the link read them and
never write them; said once for each operation.
-/
namespace Sys2Proof.Machine

/-- The host's queue, and the parts of the state that only a reset and the clock's own events write. -/
def State.ground (s : State) : List Instr × Bool × Straps × Nat × Clock :=
  (s.pending, s.inReset, s.straps, s.powerOns, s.clock)

section
variable (s : State) (c : Chan)

/-! ### Writes of other parts -/

@[simp] theorem State.ground_setEngine (e : Engine) : (s.setEngine c e).ground = s.ground := rfl
@[simp] theorem State.ground_setTimer (t : Timer) : (s.setTimer c t).ground = s.ground := rfl
@[simp] theorem State.ground_setLatches (l : Latches) : (s.setLatches c l).ground = s.ground := rfl
@[simp] theorem State.ground_setRate (r : Rate) : (s.setRate c r).ground = s.ground := rfl
@[simp] theorem State.ground_setOutput (o : Output) : (s.setOutput c o).ground = s.ground := rfl
@[simp] theorem State.ground_hand (e : Instr) : (s.hand e).ground = s.ground := rfl
@[simp] theorem State.ground_taken (e : Instr) : (s.taken e).ground = s.ground := rfl
@[simp] theorem State.ground_withdraw (es : List Instr) : (s.withdraw es).ground = s.ground := rfl
@[simp] theorem State.ground_notify (n : Notice) : (s.notify n).ground = s.ground := rfl
@[simp] theorem State.ground_transmit : s.transmit.ground = s.ground := rfl
@[simp] theorem State.ground_setHandle (h : Nat) (r : HandleRecord) : (s.setHandle h r).ground = s.ground := rfl
@[simp] theorem State.ground_setScanner (x : Scanner) : (s.setScanner x).ground = s.ground := rfl
@[simp] theorem State.ground_setReceive (r : Receive) : (s.setReceive r).ground = s.ground := rfl
@[simp] theorem State.ground_returnPages (i : Image) : (s.returnPages i).ground = s.ground := rfl
@[simp] theorem State.ground_mapImages (f : Image → Image) : (s.mapImages f).ground = s.ground := rfl
@[simp] theorem State.ground_beginRead (r : ImportRecord) : (s.beginRead r).ground = s.ground := rfl

end

/-- Actions in turn, none of which writes the ground. -/
theorem State.ground_foldl {α : Type} (f : State → α → State) (hf : ∀ u a, (f u a).ground = u.ground) :
    ∀ (l : List α) (s : State), (l.foldl f s).ground = s.ground := by
  intro l
  induction l with
  | nil => intro s; rfl
  | cons a l ih => intro s; rw [List.foldl_cons, ih, hf]

theorem State.ground_eachChannel (f : Chan → State → State) (hf : ∀ c u, (f c u).ground = u.ground)
    (s : State) : (s.eachChannel f).ground = s.ground :=
  State.ground_foldl (fun u c => f c u) (fun u c => hf c u) allChannels s

/-! ### Images and imports -/

section
variable (s : State)

@[simp] theorem State.ground_release (n : Nat) : (s.release n).ground = s.ground := by
  unfold State.release
  simp only
  split <;> rfl

@[simp] theorem State.ground_endReference (c : Chan) : (s.endReference c).ground = s.ground := by
  unfold State.endReference
  split <;> simp

@[simp] theorem State.ground_discardIncoming (h : Nat) : (s.discardIncoming h).ground = s.ground := by
  unfold State.discardIncoming
  split <;> simp

@[simp] theorem State.ground_cancelImport (cause : CancelCause) : (s.cancelImport cause).ground = s.ground := by
  unfold State.cancelImport
  split
  · rfl
  · rw [State.ground_discardIncoming]; rfl

@[simp] theorem State.ground_dropIncoming (h : Nat) (cause : CancelCause) :
    (s.dropIncoming h cause).2.ground = s.ground := by
  unfold State.dropIncoming
  split <;> simp

@[simp] theorem State.ground_dispose (h : Nat) (i : Image) : (s.dispose h i).2.ground = s.ground := by
  unfold State.dispose
  split <;> rfl

theorem State.ground_createImage {s u : State} {h n : Nat} {source : FillSource} {flag : Bool} {i : Image}
    (hc : s.createImage h n source flag = some (i, u)) : u.ground = s.ground := by
  obtain ⟨first, free, -, -, rfl⟩ := State.createImage_some hc
  rfl

theorem State.ground_commitAttempt {s u : State} {h : Nat} {i : Image} {d : Option (Nat × Disposition)}
    (hc : s.commitAttempt h i = .ok (d, u)) : u.ground = s.ground := by
  unfold State.commitAttempt at hc
  split at hc
  · obtain ⟨-, rfl⟩ := Prod.mk.inj (Except.ok.inj hc)
    rfl
  · split at hc
    · cases hc
    · obtain ⟨-, rfl⟩ := Prod.mk.inj (Except.ok.inj hc)
      simp

@[simp] theorem State.ground_writeImagePage (h : Nat) (i : Image) (k : Nat) (data : List Byte) :
    (s.writeImagePage h i k data).ground = s.ground := by
  unfold State.writeImagePage
  simp only
  split <;> rfl

@[simp] theorem State.ground_completePage (r : ImportRecord) (data : List Byte) :
    (s.completePage r data).ground = s.ground := by
  have hends : ∀ (u : State) (i : Image), (u.completeImport r i).ground = u.ground := fun u i => by
    unfold State.completeImport
    simp only
    split
    · split
      · rfl
      · rename_i hc
        exact (State.ground_commitAttempt hc :)
    · rfl
  unfold State.completePage
  split
  · rfl
  · simp only
    split <;> simp [hends]

@[simp] theorem State.ground_compareRead (r : PageRead) : (s.compareRead r).ground = s.ground := by
  unfold State.compareRead State.markDamage
  repeat' split
  all_goals simp

@[simp] theorem State.ground_decayPage (page : Nat) (data : List Byte) :
    (s.decayPage page data).ground = s.ground := by
  unfold State.decayPage
  split <;> rfl

end

/-! ### Conditions, flags, timers and the walk -/

section
variable (s : State)

@[simp] theorem State.ground_test (c : Chan) (q : Condition) : (s.test c q).2.ground = s.ground := by
  have hconsume : ∀ o, (s.consume c o).ground = s.ground := fun o => by cases o <;> rfl
  unfold State.test
  repeat' split
  all_goals simp [hconsume]

@[simp] theorem State.ground_handChanges (f : Chan → Operand → Bool) :
    (s.handChanges f).ground = s.ground := by
  rw [State.handChanges_eq]
  rfl

@[simp] theorem State.ground_writeFlags (flags : BitVec 8) : (s.writeFlags flags).ground = s.ground := by
  unfold State.writeFlags
  exact State.ground_handChanges _ _

@[simp] theorem State.ground_triggerArrival (n : Fin 4) : (s.triggerArrival n).ground = s.ground := by
  unfold State.triggerArrival
  rw [State.ground_handChanges]
  refine State.ground_eachChannel _ (fun c u => ?_) s
  split <;> simp

@[simp] theorem State.ground_softwareTrigger (m : Byte) : (s.softwareTrigger m).ground = s.ground := by
  unfold State.softwareTrigger
  rw [State.ground_handChanges]
  refine State.ground_eachChannel _ (fun c u => ?_) s
  split <;> simp

@[simp] theorem State.ground_changeTriggerLine (n : Fin 4) (high : Bool) :
    (s.changeTriggerLine n high).ground = s.ground := by
  unfold State.changeTriggerLine
  simp only
  split
  · exact State.ground_triggerArrival _ n
  · rfl

@[simp] theorem State.ground_tapTimer (c : Chan) (tap : Fin 8) : (s.tapTimer c tap).ground = s.ground := by
  have hexpires : (s.expireTimer c).ground = s.ground := by rw [State.expireTimer_eq]; rfl
  unfold State.tapTimer
  simp only
  repeat' split
  all_goals simp [hexpires]

@[simp] theorem State.ground_visitPages : ∀ (n : Nat) (s : State), (s.visitPages n).ground = s.ground := by
  intro n
  induction n with
  | zero => intro s; rfl
  | succ n ih =>
    intro s
    unfold State.visitPages
    split <;> simp [ih]

@[simp] theorem State.ground_endVisit : s.endVisit.ground = s.ground := by
  unfold State.endVisit
  simp only
  split <;> simp

@[simp] theorem State.ground_resumeWalk : s.resumeWalk.ground = s.ground := by
  unfold State.resumeWalk
  simp only
  split <;> simp

@[simp] theorem State.ground_tap (k : Fin 7) : (s.tap k).ground = s.ground := by
  have hwalk : ∀ u : State, u.walkTick.ground = u.ground := fun u => by
    unfold State.walkTick State.beginBlock
    repeat' split
    all_goals simp
  have htimers := State.ground_eachChannel _ (fun c u => u.ground_tapTimer c (tapOf k)) s
  unfold State.tap
  simp only
  split
  · rw [hwalk, htimers]
  · exact htimers

end

/-! ### The link -/

section
variable (s : State)

@[simp] theorem State.ground_arrive (f : Frame) : (s.arrive f).ground = s.ground := by
  unfold State.arrive
  split <;> rfl

@[simp] theorem State.ground_failFrame (st : Status) (tag : Byte) :
    (s.failFrame st tag).ground = s.ground := by
  unfold State.failFrame
  split <;> rfl

@[simp] theorem State.ground_receiveByte (b : Byte) : (s.receiveByte b).ground = s.ground := by
  have hheader : ∀ taken, (s.takeHeader taken).ground = s.ground := fun taken => by
    unfold State.takeHeader
    simp only
    repeat' split
    all_goals simp
  have hcheck : ∀ f w, (s.checkFrame f w).ground = s.ground := fun f w => by
    unfold State.checkFrame
    simp only
    split <;> simp
  unfold State.receiveByte
  repeat' split
  all_goals simp [hheader, hcheck]

@[simp] theorem State.ground_discardPartial (r : Receive) : (s.discardPartial r).ground = s.ground := by
  unfold State.discardPartial
  rw [State.ground_setReceive]
  split <;> simp

@[simp] theorem State.ground_framingError : s.framingError.ground = s.ground := by
  unfold State.framingError
  split <;> simp

@[simp] theorem State.ground_linkGap : s.linkGap.ground = s.ground := by
  unfold State.linkGap
  split <;> simp

end

/-! ### The channel engines -/

section
variable (s : State) (c : Chan)

@[simp] theorem State.ground_idleChannel : (s.idleChannel c).ground = s.ground := by
  rw [State.idleChannel_eq]
  rfl

@[simp] theorem State.ground_endRun (cause : RunEndCause) : (s.endRun c cause).ground = s.ground := by
  simp [State.endRun]

@[simp] theorem State.ground_faultChannel (cause : FaultCause) (k : Option Nat) :
    (s.faultChannel c cause k).ground = s.ground := by
  simp [State.faultChannel, State.haltTimer, State.restOutput]

theorem State.ground_loopTest (c : Chan) (i : Nat) : ∀ (turns : Nat) (s : State),
    (s.loopTest c i turns).2.ground = s.ground := by
  intro turns
  induction turns with
  | zero => intro s; rfl
  | succ n ih =>
    intro s
    unfold State.loopTest
    simp only
    repeat' split
    all_goals simp [ih, State.setLoops]

@[simp] theorem State.ground_advance : (s.advance c).1.ground = s.ground := by
  unfold State.advance
  simp only
  split <;> simp [State.goTo, State.ground_loopTest]

/-- R78, R87: a step of any kind. -/
@[simp] theorem State.ground_executeStep : (s.executeStep c).1.ground = s.ground := by
  unfold State.executeStep
  split
  case h_1 => simp
  case h_2 =>
    unfold State.playStep
    split <;> simp [State.takeReference, State.markOutput]
  case h_3 =>
    unfold State.loopStep
    simp only
    repeat' split
    all_goals simp [State.goTo, State.setLoops]
  case h_4 =>
    unfold State.branchStep
    simp only
    repeat' split
    all_goals simp [State.goTo, State.setLoops]
  case h_5 =>
    unfold State.callStep
    simp only
    repeat' split
    all_goals simp
  case h_6 =>
    unfold State.returnStep
    simp only
    repeat' split
    all_goals simp
  case h_7 =>
    unfold State.waitStep
    simp only
    split <;> simp
  case h_8 => simp [State.loadTimer]
  case h_9 =>
    unfold State.signalStep
    simp only
    rw [State.ground_advance]
    repeat' split
    all_goals simp

@[simp] theorem State.ground_takeSteps : ∀ (n : Nat) (s : State), (s.takeSteps c n).ground = s.ground := by
  intro n
  induction n with
  | zero => intro s; rfl
  | succ n ih =>
    intro s
    unfold State.takeSteps
    simp only
    split <;> simp [ih, State.countStep]

@[simp] theorem State.ground_stepEvent : (s.stepEvent c).ground = s.ground := by
  simp [State.stepEvent, State.beginEvent]

@[simp] theorem State.ground_advanceEvent : (s.advanceEvent c).ground = s.ground := by
  unfold State.advanceEvent
  simp only
  split <;> simp [State.beginEvent]

/-! ### Starts, releases, pauses and stops -/

@[simp] theorem State.ground_startTest : (s.startTest c).ground = s.ground := by
  have hstarts : ∀ u : State, (u.startChannel c).ground = u.ground := fun u => by
    unfold State.startChannel
    simp only
    split <;> simp [State.beginEvent]
  unfold State.startTest
  simp only
  repeat' split
  all_goals simp [hstarts]

@[simp] theorem State.ground_releaseTest : (s.releaseTest c).ground = s.ground := by
  unfold State.releaseTest
  simp only
  repeat' split
  all_goals simp

@[simp] theorem State.ground_goOn : (s.goOn c).ground = s.ground := by
  unfold State.goOn
  split <;> simp

@[simp] theorem State.ground_pauseChanged : (s.pauseChanged c).ground = s.ground := by
  unfold State.pauseChanged
  simp only
  split <;> simp

@[simp] theorem State.ground_followPauseLine : (s.followPauseLine c).ground = s.ground := by
  simp [State.followPauseLine]

@[simp] theorem State.ground_pauseChannel : (s.pauseChannel c).ground = s.ground := by
  unfold State.pauseChannel
  split <;> simp

@[simp] theorem State.ground_resumeChannel : (s.resumeChannel c).ground = s.ground := by
  simp [State.resumeChannel]

@[simp] theorem State.ground_stopNow : (s.stopNow c).ground = s.ground := by
  unfold State.stopNow
  split <;> simp

@[simp] theorem State.ground_stopAfterPlay : (s.stopAfterPlay c).ground = s.ground := by
  unfold State.stopAfterPlay
  split <;> simp

@[simp] theorem State.ground_runChannels (mask : Byte) (start : Nat) (q : Condition) :
    (s.runChannels mask start q).ground = s.ground := by
  unfold State.runChannels
  simp only
  rw [State.ground_foldl _ (fun u c => u.ground_startTest c),
    State.ground_foldl (fun u c => u.armChannel start q c) (fun u c => rfl), State.ground_withdraw]

/-! ### Passes and sample periods -/

@[simp] theorem State.ground_passComplete (p : PlayRecord) (counted : Bool) :
    (s.passComplete c p counted).ground = s.ground := by
  have hcompletes : ∀ u : State, (u.completePlay c p).ground = u.ground := fun u => by
    unfold State.completePlay
    simp only
    split <;> simp [State.beginEvent, State.markOutput]
  have hholds : ∀ u : State, (u.holdTest c p).ground = u.ground := fun u => by
    unfold State.holdTest
    simp only
    repeat' split
    all_goals simp [hcompletes, State.setActivity]
  unfold State.passComplete
  simp only
  split <;> simp [hholds, State.setActivity]

@[simp] theorem State.ground_waitPeriod (w : WaitRecord) : (s.waitPeriod c w).ground = s.ground := by
  unfold State.waitPeriod
  split <;> rfl

@[simp] theorem State.ground_samplePeriod : (s.samplePeriod c).ground = s.ground := by
  have hcarries : ∀ u : State, (u.carryRest c).ground = u.ground := fun u => rfl
  have hfrozen : ∀ u : State, (u.frozenPeriod c).ground = u.ground := fun u => by
    unfold State.frozenPeriod
    repeat' split
    all_goals simp [hcarries, State.carryCode]
  have hplays : ∀ (u : State) p b, (u.playPeriod c p b).ground = u.ground := fun u p b => by
    unfold State.playPeriod
    simp only
    split <;> simp [State.setActivity, State.deliverSample]
  unfold State.samplePeriod
  simp only
  repeat' split
  all_goals simp [hcarries, hfrozen, hplays]

@[simp] theorem State.ground_periodEvent : (s.periodEvent c).ground = s.ground := by
  simp [State.periodEvent]

@[simp] theorem State.ground_passPeriods : ∀ (n : Nat) (s : State), (s.passPeriods c n).ground = s.ground := by
  intro n
  induction n with
  | zero => intro s; rfl
  | succ n ih =>
    intro s
    unfold State.passPeriods
    simp only
    repeat' split
    all_goals simp [ih]

/-! ### The hold and operand changes -/

@[simp] theorem State.ground_raiseEvent (target : HoldTarget) : (s.raiseEvent target).ground = s.ground := by
  unfold State.raiseEvent State.raiseHold
  simp only
  repeat' split
  all_goals simp

@[simp] theorem State.ground_dropEvent (target : HoldTarget) : (s.dropEvent target).ground = s.ground := by
  unfold State.dropEvent State.dropHold
  simp only
  repeat' split
  all_goals simp

@[simp] theorem State.ground_changeEvent : (s.changeEvent c).ground = s.ground := by
  unfold State.changeEvent
  simp only
  repeat' split
  all_goals simp

@[simp] theorem State.ground_catchUp (e : Instr) : (s.catchUp c e).ground = s.ground := by
  refine State.ground_foldl _ (fun u e => ?_) _ s
  unfold State.signalEvent
  split <;> simp

@[simp] theorem State.ground_catchUpAt (target : HoldTarget) (e : Instr) :
    (s.catchUpAt target e).ground = s.ground := by
  unfold State.catchUpAt
  split <;> simp

end

end Sys2Proof.Machine
end

section
/-!
The ground under the requests (all but SET REFERENCE leave it as it was) and at the end of a sent frame.
-/
namespace Sys2Proof.Machine

/-! ### Requests -/

section
variable (s : State)

theorem State.ground_takeDefineImage (h : Half) (n : Quad) (b : Byte) :
    (takeDefineImage h n b s).1.ground = s.ground := by
  simp only [takeDefineImage, answer, refuse]
  repeat' split
  case h_2 hc => exact State.ground_createImage hc
  all_goals rfl

theorem State.ground_takeStartImport (h : Half) (a n : Quad) (b : Byte) :
    (takeStartImport h a n b s).1.ground = s.ground := by
  simp only [takeStartImport, answer, refuse]
  repeat' split
  case h_2 hc => exact (State.ground_beginRead _ _).trans (State.ground_createImage hc)
  all_goals rfl

theorem State.ground_takeFinishImage (h : Half) : (takeFinishImage h s).1.ground = s.ground := by
  simp only [takeFinishImage, answer, refuse]
  repeat' split
  case h_2 hc => exact (State.ground_commitAttempt hc :)
  all_goals rfl

theorem State.ground_takeCommit (h : Half) : (takeCommit h s).1.ground = s.ground := by
  simp only [takeCommit, answer, refuse]
  repeat' split
  case h_2 hc => exact State.ground_commitAttempt hc
  case h_2 hc => exact State.ground_commitAttempt hc
  all_goals rfl

theorem State.ground_takeReleaseHandle (h : Half) : (takeReleaseHandle h s).1.ground = s.ground := by
  have hreleases : ∀ h, (s.releaseIncoming h).2.ground = s.ground := fun h => by
    unfold State.releaseIncoming
    split <;> simp
  simp only [takeReleaseHandle, answer, refuse]
  repeat' split
  all_goals simp [hreleases]

theorem State.ground_takeStop (m o : Byte) : (takeStop m o s).1.ground = s.ground := by
  unfold takeStop
  split
  · rfl
  · split
    · rfl
    · refine State.ground_foldl _ (fun u c => ?_) _ s
      split <;> simp

theorem State.ground_takePause (m : Byte) : (takePause m s).1.ground = s.ground := by
  unfold takePause
  split
  · rfl
  · exact State.ground_foldl _ (fun u c => u.ground_pauseChannel c) _ s

theorem State.ground_takeResume (m : Byte) : (takeResume m s).1.ground = s.ground := by
  unfold takeResume
  split
  · rfl
  · exact State.ground_foldl _ (fun u c => u.ground_resumeChannel c) _ s

end

/-- What a block does with a request other than SET REFERENCE. -/
theorem State.ground_take {i : Instr} {take : State → Answer} (h : takeOf i = some take)
    (hi : ∀ tag x, i ≠ .setReference tag x) (s : State) : (take s).1.ground = s.ground := by
  cases i <;> simp only [takeOf, Option.some.injEq, reduceCtorEq] at h <;> subst h
  case setReference => exact absurd rfl (hi _ _)
  case defineImage => exact s.ground_takeDefineImage _ _ _
  case startImport => exact s.ground_takeStartImport _ _ _ _
  case finishImage => exact s.ground_takeFinishImage _
  case commit => exact s.ground_takeCommit _
  case releaseHandle => exact s.ground_takeReleaseHandle _
  case stop => exact s.ground_takeStop _ _
  case pause => exact s.ground_takePause _
  case resume => exact s.ground_takeResume _
  case wake =>
    simp only [takeWake, answer]
    split
    · exact State.ground_resumeWalk _
    · rfl
  case closeLibrary =>
    simp only [takeCloseLibrary, answer]
    split
    · rfl
    · exact State.ground_cancelImport _ _
  case identify | readDevice | resetEngine | readGuards | readImport | readWalk | readConditions | readClock => rfl
  case writePage | dropIncoming | cancelImport | run | clearFault | setPolicy | setFlags | fireTrigger =>
    simp only [takeWritePage, takeDropIncoming, takeCancelImport, takeRun, takeClearFault, takeSetPolicy,
      takeSetFlags, takeFireTrigger, answer, refuse]
    repeat' split
    all_goals simp
  all_goals
    simp only [takeEnterStandby, takeSetNotices, takeReadHandle, takeReadMap, takeSetGuard, takeClearGuard,
      takeLockGuards, takeSetWalk, takeSetPartition, takeWriteSteps, takeReadSteps, takeReadChannel, takeSetRoute,
      takeSetRate, takeSetOutput, takeReadOutput, answer, refuse]
    repeat' split
    all_goals rfl

/-! ### The end of a sent frame -/

@[simp] theorem State.ground_engineReset (s : State) : s.engineReset.ground = s.ground := by
  have hchannel : ∀ (c : Chan) (u : State), (u.resetChannel c).ground = u.ground := fun c u => by
    simp [State.resetChannel]
  have hblocks : ((s.eachChannel fun c s => s.resetChannel c).cancelImport .request).ground = s.ground := by
    rw [State.ground_cancelImport, State.ground_eachChannel _ hchannel]
  unfold State.engineReset
  generalize (s.eachChannel fun c s => s.resetChannel c).cancelImport .request = u at hblocks
  exact hblocks

@[simp] theorem State.ground_completeSending (s : State) : s.completeSending.ground = s.ground := by
  unfold State.completeSending State.afterReply
  repeat' split
  case h_3 => exact State.ground_engineReset _
  all_goals rfl

end Sys2Proof.Machine
end

section
/-!
The reference clock's invariant (R133, R136 to R141, R156): outside reset the switches and the time base keep
it, a reset restores it, and all else leaves the clock as it was.
-/
namespace Sys2Proof.Machine

/-- The RESET line is not asserted, and the clock agrees with itself. -/
structure State.ClockLive (s : State) : Prop where
  live : s.inReset = false
  agrees : s.clock.agrees

/-! ### The switches -/

section
variable {s : State}

theorem State.ClockLive.of_ground {t : State} (hs : s.ClockLive) (h : t.ground = s.ground) : t.ClockLive := by
  simp only [State.ground, Prod.mk.injEq] at h
  obtain ⟨-, hreset, -, -, hclock⟩ := h
  exact ⟨hreset.trans hs.live, hclock ▸ hs.agrees⟩

/-- R136: a switch to EXTERNAL leaves the internal reference. -/
theorem State.ClockLive.switchToExternal (hs : s.ClockLive) (hsource : s.clock.source = .internal) :
    s.switchToExternal.ClockLive :=
  ⟨hs.live, hs.agrees.1, rfl, hsource, rfl, rfl, _, rfl, Nat.le_refl _⟩

/-- R138, R139: a switch to INTERNAL leaves the external reference. -/
theorem State.ClockLive.switchToInternal (hs : s.ClockLive) (hsource : s.clock.source = .external)
    (cause : SwitchCause) : (s.switchToInternal cause).ClockLive :=
  ⟨hs.live, hs.agrees.1, hsource, rfl, rfl, rfl⟩

/-- R136 to R138: a switch ends with the lock status of its source. -/
theorem State.ClockLive.endSwitch (hs : s.ClockLive) {source : Source} {lock : LockStatus}
    (hlock : lock = match source with | .internal => .off | .external => .locked) (cause : ReferenceCause) :
    (s.endSwitch source lock cause).ClockLive :=
  ⟨hs.live, hs.agrees.1, rfl, rfl, hlock⟩

theorem State.ClockLive.lockAcquired (hs : s.ClockLive) : s.lockAcquired.ClockLive := by
  unfold State.lockAcquired
  split
  · exact hs.endSwitch rfl _
  · exact hs
  · exact hs

theorem State.ClockLive.lockTimeoutExpired (hs : s.ClockLive) : s.lockTimeoutExpired.ClockLive := by
  unfold State.lockTimeoutExpired
  split
  · exact hs.endSwitch rfl _
  · exact hs
  · exact hs

theorem State.ClockLive.transferDone (hs : s.ClockLive) : s.transferDone.ClockLive := by
  unfold State.transferDone
  split
  · exact hs.endSwitch rfl _
  · exact hs.endSwitch rfl _
  · exact hs
  · exact hs

theorem State.ClockLive.referenceLost (hs : s.ClockLive) : s.referenceLost.ClockLive := by
  unfold State.referenceLost
  split
  case h_1 hsource => exact hs.switchToInternal hsource _
  case h_2 => exact hs

/-- R135: SET REFERENCE begins a switch away from the source alone. -/
theorem State.ClockLive.takeSetReference (hs : s.ClockLive) (code : Byte) :
    (takeSetReference code s).1.ClockLive := by
  unfold Machine.takeSetReference
  split
  · exact hs
  · rename_i source _
    split
    · exact hs
    · simp only [answer]
      split
      · exact hs
      · rename_i hother
        cases source <;> cases hsource : s.clock.source <;> simp only [hsource, not_true_eq_false] at hother
        · exact hs.switchToInternal hsource _
        · exact hs.switchToExternal hsource

/-! ### The time base -/

theorem timeBaseCycle_pos : 0 < Config.timeBaseCycle := by decide

/-- R146: the chain moves to a place within its cycle. -/
theorem State.ClockLive.setTimeBase {t : State} (hs : s.ClockLive) {p : Nat} (hp : p < Config.timeBaseCycle)
    (hlive : t.inReset = s.inReset) (hclock : t.clock = { s.clock with timeBase := p }) : t.ClockLive :=
  ⟨hlive.trans hs.live, by rw [hclock]; exact ⟨hp, hs.agrees.2⟩⟩

theorem State.ClockLive.tapEvent (hs : s.ClockLive) (k : Fin 7) : (s.tapEvent k).ClockLive := by
  unfold State.tapEvent
  split
  · split
    · exact hs.of_ground (by simp)
    · have hdivide : (s.divide k).ClockLive := hs.setTimeBase (Nat.mod_lt _ timeBaseCycle_pos) rfl rfl
      exact hdivide.of_ground (by simp)
  · exact hs

/-- R137: a running lock timeout comes lower. -/
theorem Clock.agrees.lowerTimeout {k : Clock} {n : Nat} (h : k.agrees) (hn : k.lockTimeout = some (n + 1)) :
    ({ k with lockTimeout := some n } : Clock).agrees := by
  obtain ⟨hbase, hrest⟩ := h
  refine ⟨hbase, ?_⟩
  simp only
  split at hrest
  · simp [hn] at hrest
  · obtain ⟨hcause, hsource, hhold, hlock, m, hm, hle⟩ := hrest
    have : m = n + 1 := by simpa [hn] using hm.symm
    exact ⟨hcause, hsource, hhold, hlock, n, rfl, by omega⟩
  · simp [hn] at hrest

theorem State.ClockLive.tickTimeout (hs : s.ClockLive) : s.tickTimeout.ClockLive := by
  unfold State.tickTimeout
  split
  · rename_i n hn
    simp only
    split <;> exact ⟨hs.live, hs.agrees.lowerTimeout hn⟩
  all_goals exact hs

theorem State.ClockLive.tick (hs : s.ClockLive) : s.tick.ClockLive := by
  unfold State.tick
  split
  · exact hs
  · simp only
    split
    · exact hs.tickTimeout
    · have hphases := (s.tickTimeout.tickPhases_eq).1
      exact hs.tickTimeout.setTimeBase (Nat.mod_lt _ timeBaseCycle_pos) (by rw [hphases]; rfl)
        (by rw [State.tickChain, hphases])

/-! ### Requests -/

theorem State.ClockLive.take (hs : s.ClockLive) {i : Instr} {take : State → Answer} (h : takeOf i = some take) :
    (take s).1.ClockLive := by
  by_cases hi : ∃ tag x, i = .setReference tag x
  · obtain ⟨tag, x, rfl⟩ := hi
    obtain rfl := Option.some.inj h
    exact hs.takeSetReference x
  · exact hs.of_ground (State.ground_take h (fun tag x e => hi ⟨tag, x, e⟩) s)

theorem State.ClockLive.handOnNext (hs : s.ClockLive) : s.handOnNext.ClockLive := by
  unfold State.handOnNext
  split
  · rename_i f rest _ _
    have hs' : ({ s with link := { s.link with requests := rest } } : State).ClockLive := hs.of_ground rfl
    unfold State.handOn
    split
    · exact hs'.of_ground rfl
    · exact hs'.of_ground rfl
    · split
      · rename_i ht
        exact (hs'.take ht).of_ground rfl
      · exact hs'
  · exact hs

end

/-! ### Commands -/

section
variable {s t : State}

theorem State.ClockLive.wf (hs : s.ClockLive) : s.ClockWf :=
  ⟨hs.agrees, fun h => absurd (hs.live.symm.trans h) (by decide)⟩

theorem State.ClockWf.live (hs : s.ClockWf) (h : s.inReset = false) : s.ClockLive := ⟨h, hs.1⟩

theorem State.ClockWf.of_ground (hs : s.ClockWf) (h : t.ground = s.ground) : t.ClockWf := by
  simp only [State.ground, Prod.mk.injEq] at h
  obtain ⟨-, hreset, -, -, hclock⟩ := h
  exact ⟨hclock ▸ hs.1, fun hr => hclock.trans (hs.2 (hreset.symm.trans hr))⟩

/-- An event does nothing in reset. -/
theorem State.ClockWf.event {f : State → State} (hs : s.ClockWf) (hf : s.ClockLive → (f s).ClockLive)
    (h : event f s = .next t) : t.ClockWf := by
  cases hr : s.inReset with
  | true =>
    obtain rfl := Host.Outcome.next.inj ((event_inReset f hr).symm.trans h)
    exact hs
  | false =>
    obtain rfl := Host.Outcome.next.inj ((event_live f hr).symm.trans h)
    exact ((hf (hs.live hr)).of_ground (State.ground_transmit _)).wf

/-- An event that leaves the clock as it was. -/
theorem State.ClockWf.quietEvent {f : State → State} (hs : s.ClockWf) (hf : (f s).ground = s.ground)
    (h : Machine.event f s = .next t) : t.ClockWf :=
  hs.event (fun hl => hl.of_ground hf) h

/-- A request reaches its block outside reset alone. -/
theorem State.ClockWf.request {i : Instr} {take : State → Answer} (hs : s.ClockWf) (ht : takeOf i = some take)
    (h : exec i s = .next t) : t.ClockWf := by
  rw [exec_request ht s] at h
  cases hr : s.inReset with
  | true =>
    obtain rfl := Host.Outcome.next.inj ((submit_inReset i take hr).symm.trans h)
    exact hs
  | false =>
    have hl := hs.live hr
    exact (submit_keeps State.ClockLive i take s t hl (hl.take ht) (fun _ _ hu => hu.of_ground rfl) h).wf

/-- R156: the clock as a reset leaves it agrees with itself. -/
theorem Clock.reset_agrees : Clock.reset.agrees := ⟨timeBaseCycle_pos, rfl, rfl, rfl⟩

/-- R156: the part leaves reset on the internal reference, on its way to EXTERNAL where the strap says so. -/
theorem State.clockLive_leaveReset (hlive : s.inReset = false) (hclock : s.clock = Clock.reset) :
    s.leaveReset.ClockLive := by
  have hs : s.ClockLive := ⟨hlive, hclock ▸ Clock.reset_agrees⟩
  unfold State.leaveReset
  split
  · exact hs.switchToExternal (by rw [hclock]; rfl)
  · exact hs

theorem State.clockWf_of_reset (hclock : s.clock = Clock.reset) : s.ClockWf :=
  ⟨hclock ▸ Clock.reset_agrees, fun _ => hclock⟩

theorem State.clockWf_execPowerOnReset {rate : BitVec 2} {lib ref : Bool}
    (h : exec (.powerOnReset rate lib ref) s = .next t) : t.ClockWf := by
  obtain rfl := Host.Outcome.next.inj h
  split
  · exact State.clockWf_of_reset rfl
  · rename_i hlive
    exact (State.clockLive_leaveReset (Bool.not_eq_true _ ▸ hlive) rfl).wf

theorem State.ClockWf.execResetLineRelease (hs : s.ClockWf) (h : exec .resetLineRelease s = .next t) :
    t.ClockWf := by
  obtain rfl := Host.Outcome.next.inj h
  split
  · rename_i hreset
    exact (State.clockLive_leaveReset (s := { s with inReset := false }.setReceive .hunt) rfl (hs.2 hreset)).wf
  · exact hs

/-- Every command keeps the invariant of the clock. -/
theorem State.ClockWf.exec (hs : s.ClockWf) (i : Instr) (h : exec i s = .next t) : t.ClockWf := by
  cases i
  case receiveCharacter =>
    change execReceiveCharacter _ _ s = .next t at h
    refine hs.quietEvent ?_ h
    split <;> simp
  case linkGapTimeout => exact hs.quietEvent s.ground_linkGap h
  case requestHandOn => exact hs.event State.ClockLive.handOnNext h
  case frameSent => exact hs.quietEvent s.ground_completeSending h
  case standbyBegin =>
    refine hs.quietEvent ?_ h
    split <;> simp
  case engineResetPerformed =>
    refine hs.quietEvent ?_ h
    split <;> simp
  case powerOnReset => exact State.clockWf_execPowerOnReset h
  case resetLine =>
    obtain rfl := Host.Outcome.next.inj h
    exact State.clockWf_of_reset rfl
  case guardEnableChange =>
    obtain rfl := Host.Outcome.next.inj h
    exact hs.of_ground rfl
  case pauseLineChange =>
    obtain rfl := Host.Outcome.next.inj h
    refine hs.of_ground ?_
    rw [State.ground_transmit, State.ground_eachChannel _ fun c u => u.ground_followPauseLine c]
    rfl
  case triggerLineChange =>
    obtain rfl := Host.Outcome.next.inj h
    exact hs.of_ground (s.ground_changeTriggerLine _ _)
  case lockAcquired => exact hs.event State.ClockLive.lockAcquired h
  case lockTimeoutExpiry =>
    change execLockTimeoutExpiry s = .next t at h
    exact hs.event (fun hl => (hl.of_ground (s.ground_taken _)).lockTimeoutExpired) h
  case referenceLost => exact hs.event State.ClockLive.referenceLost h
  case transferDone => exact hs.event State.ClockLive.transferDone h
  case holdRaise =>
    refine hs.quietEvent ?_ h
    split <;> simp
  case holdDrop =>
    refine hs.quietEvent ?_ h
    split <;> simp
  case samplePeriod =>
    change execSamplePeriod _ s = .next t at h
    refine hs.quietEvent ?_ h
    split
    · rfl
    · simp only
      split <;> simp
  case timeBaseTap k => exact hs.event (fun hl => hl.tapEvent k) h
  case timerExpiry =>
    change execTimerExpiry _ s = .next t at h
    refine hs.event (fun hl => ?_) h
    split
    · exact hl.tapEvent _
    · exact hl
  case operandChange =>
    change execOperandChange _ s = .next t at h
    refine hs.quietEvent ?_ h
    simp
  case importPageComplete =>
    change execImportPageComplete _ _ s = .next t at h
    refine hs.quietEvent ?_ h
    split
    · split <;> simp
    · rfl
  case walkIntervalExpiry =>
    refine hs.event (fun hl => ?_) h
    split
    · exact hl.tapEvent _
    · exact hl
  case scanReadComplete =>
    change execScanReadComplete _ s = .next t at h
    refine hs.quietEvent ?_ h
    split
    · split <;> simp
    · rfl
  case resetLineRelease => exact hs.execResetLineRelease h
  case pageDecay =>
    obtain rfl := Host.Outcome.next.inj h
    refine hs.of_ground ?_
    rw [State.ground_transmit]
    split <;> simp
  all_goals exact hs.request rfl h

/-- A step of the machine keeps it. -/
theorem State.ClockWf.step (hs : s.ClockWf) (h : step s = .next t) : t.ClockWf := by
  unfold Machine.step at h
  split at h
  · rename_i c rest _
    exact State.ClockWf.exec (s := { s with pending := rest }) ⟨hs.1, hs.2⟩ c h
  · unfold idle at h
    split at h
    · exact hs.exec _ h
    · obtain rfl := Host.Outcome.next.inj h
      cases hr : s.inReset with
      | true =>
        rw [State.tick, if_pos hr]
        exact hs
      | false => exact (hs.live hr).tick.wf

end

end Sys2Proof.Machine

namespace Sys2Proof.Proofs
open Machine

/-- Settles O57: the clock's own events keep the agreement, a reset restores it, and nothing else writes the
clock. -/
theorem theClockAgreesWithItself : Obligations.TheClockAgreesWithItself := by
  intro s t hs h
  exact hs.step h

end Sys2Proof.Proofs
end

section
/-!
The timers through the resets (R157): a reset of the blocks makes each timer STOPPED and empty; the engine
reset does so channel by channel and keeps the notice enables.
-/
namespace Sys2Proof.Machine

variable {s : State} {c d : Chan}

/-! ### Power-on reset and the RESET line -/

/-- R156: a switch that begins as the part leaves reset touches no timer and queues no notice. -/
theorem State.leaveReset_quiet (s : State) :
    s.leaveReset.link = s.link ∧ s.leaveReset.channels = s.channels := by
  unfold State.leaveReset
  split <;> exact ⟨rfl, rfl⟩

theorem State.timer_resetBlocks (s : State) (c : Chan) : s.resetBlocks.timer c = Timer.reset :=
  congrArg Channel.timer (s.chan_resetBlocks c)

theorem State.timers_execPowerOnReset {rate : BitVec 2} {lib ref : Bool} {t : State}
    (h : exec (.powerOnReset rate lib ref) s = .next t) :
    t.link.notices = [] ∧ ∀ c, t.timer c = Timer.reset := by
  have hblocks : ∀ u : State, u.link = (s.poweredOn rate lib ref).link →
      u.channels = (s.poweredOn rate lib ref).channels → u.link.notices = [] ∧ ∀ c, u.timer c = Timer.reset :=
    fun u hlink hchannels => ⟨by rw [hlink]; rfl, fun c => by
      rw [State.timer, State.chan, hchannels]
      exact s.timer_resetBlocks c⟩
  obtain rfl := Host.Outcome.next.inj h
  split
  · exact hblocks _ rfl rfl
  · obtain ⟨hlink, hchannels⟩ := (s.poweredOn rate lib ref).leaveReset_quiet
    exact hblocks _ hlink hchannels

/-! ### The engine reset (R214) -/

/-- R157: the timer of a channel after the engine reset. -/
def Timer.cleared (t : Timer) : Timer := { Timer.reset with notify := t.notify }

/-- R157: the engine reset of a channel clears its own timer alone. -/
theorem State.timer_resetChannel (s : State) (c d : Chan) :
    (s.resetChannel c).timer d = if d = c then (s.timer c).cleared else s.timer d := by
  have hreference : ∀ d, (s.endReference c).timer d = s.timer d := fun d =>
    congrArg Channel.timer (s.chan_endReference c d)
  unfold State.resetChannel
  simp only
  split
  · rename_i hd
    subst hd
    rw [State.timer_setTimer_self, State.idleChannel_eq, State.timer, State.chan_setChan_self]
    have hcleared := congrArg Timer.cleared (hreference d)
    exact hcleared
  · rename_i hd
    rw [State.timer, State.chan_setTimer_ne _ (Ne.symm hd), State.chan_idleChannel_ne _ (Ne.symm hd)]
    exact hreference d

theorem State.timer_foldl_resetChannel (l : List Chan) (s : State) (d : Chan) :
    (l.foldl (fun u c => u.resetChannel c) s).timer d = if d ∈ l then (s.timer d).cleared else s.timer d := by
  induction l generalizing s with
  | nil => rfl
  | cons c l ih =>
    rw [List.foldl_cons, ih, State.timer_resetChannel]
    by_cases hd : d = c
    · subst hd
      simp [Timer.cleared]
    · simp [hd]

theorem State.timer_engineReset (s : State) (c : Chan) : s.engineReset.timer c = (s.timer c).cleared := by
  have hblocks : ((s.eachChannel fun c u => u.resetChannel c).cancelImport .request).timer c =
      (s.timer c).cleared := by
    rw [State.timer, State.chan_of_panel (State.panel_cancelImport _ _) c]
    exact (State.timer_foldl_resetChannel allChannels s c).trans (if_pos (mem_allChannels c))
  unfold State.engineReset
  generalize (s.eachChannel fun c u => u.resetChannel c).cancelImport .request = u at hblocks
  exact hblocks

theorem exec_engineResetPerformed (hlive : s.inReset = false) (hsends : s.link.sending = some .reply)
    (hawaits : s.link.awaiting = some .engineReset) : exec .engineResetPerformed s =
      .next ({ s with link := { s.link with
        sending := none, slot := none, lastSent := some .reply } } : State).engineReset.transmit := by
  have hsending : s.link.sendingAwaited .engineReset = true := by simp [Link.sendingAwaited, hsends, hawaits]
  change event _ s = _
  rw [event_live _ hlive]
  simp only [hsending, if_true, State.completeSending, hsends, State.afterReply, hawaits]

theorem State.notices_engineReset (s : State) : s.engineReset.link.notices = [] := rfl

/-- R203: the transmitter queues no notice. -/
theorem State.notices_transmit (h : s.link.notices = []) : s.transmit.link.notices = [] := by
  have hlength : s.link.transmit.notices.length ≤ 0 := s.link.transmit_length.trans_eq (by rw [h]; rfl)
  exact List.length_eq_zero_iff.mp (Nat.le_zero.mp hlength)

end Sys2Proof.Machine

namespace Sys2Proof.Proofs
open Machine

/-- Settles O18: the reset state's timers after the two resets of the part, and the engine reset channel by
channel. -/
theorem timersThroughResets : Obligations.TimersThroughResets := by
  refine fun s => ⟨fun rate lib ref t h => State.timers_execPowerOnReset h, fun t h => ?_,
    fun t hlive hsends hawaits h => ?_⟩
  · obtain rfl := Host.Outcome.next.inj (s.exec_resetLine.symm.trans h)
    exact ⟨rfl, s.timer_resetBlocks⟩
  · obtain rfl := Host.Outcome.next.inj ((exec_engineResetPerformed hlive hsends hawaits).symm.trans h)
    refine ⟨State.notices_transmit (State.notices_engineReset _), fun c => ?_⟩
    rw [State.timer_transmit, State.timer_engineReset]
    rfl

end Sys2Proof.Proofs
end

section
/-!
A step on an empty queue (R134, R137, R141, R143, R146; log entries 3 and 13): which event the part takes of
itself, and the tick in closed form, with the hold raised and with the hold dropped.
-/
namespace Sys2Proof.Machine

variable {s : State}

/-! ### The part's own event -/

theorem step_empty (hq : s.pending = []) : step s = idle s := by
  simp only [step, hq]

theorem idle_own {e : Instr} (h : s.ownEvent = some e) : idle s = exec e s := by
  simp only [idle, h]

theorem idle_tick (h : s.ownEvent = none) : idle s = .next s.tick := by
  simp only [idle, h]

/-- R202: with no handed event to take, the part hands on a waiting request where the link may. -/
theorem State.ownEvent_waiting (h : ∀ e ∈ s.handed, s.admits e = false) : s.ownEvent =
    if !s.inReset && s.link.ready && !s.link.requests.isEmpty then some .requestHandOn else none := by
  have hnone : s.handed.find? s.admits = none := List.find?_eq_none.mpr fun e he => by simp [h e he]
  simp only [State.ownEvent, hnone]

/-! ### The tick -/

theorem State.tick_inReset (h : s.inReset = true) : s.tick = s := if_pos h

/-- R134: in a hold the lock timeout alone moves. -/
theorem State.tick_held (hlive : s.inReset = false) (hhold : s.clock.hold = true) : s.tick = s.tickTimeout := by
  have hstill : s.tickTimeout.clock.hold = s.clock.hold := by
    unfold State.tickTimeout
    split
    · simp only
      split <;> rfl
    all_goals rfl
  unfold State.tick
  simp [hlive, hstill, hhold]

theorem State.tickTimeout_still (h : s.clock.lockTimeout = none ∨ s.clock.lockTimeout = some 0) :
    s.tickTimeout = s := by
  unfold State.tickTimeout
  rcases h with h | h <;> rw [h]

/-- R137: a running lock timeout comes one period lower, and hands its expiry on at its end. -/
theorem State.tickTimeout_lowers {n : Nat} (h : s.clock.lockTimeout = some (n + 1)) :
    s.tickTimeout = { s with
      clock := { s.clock with lockTimeout := some n }
      handed := s.handed ++ if n = 0 then [.lockTimeoutExpiry] else [] } := by
  unfold State.tickTimeout
  simp only [h]
  split
  · rfl
  · rw [List.append_nil]

/-- R134: outside a hold, with no lock timeout, the phases and the chain move. -/
theorem State.tick_counted (hlive : s.inReset = false) (hhold : s.clock.hold = false)
    (htimeout : s.clock.lockTimeout = none) :
    s.tick = (s.eachChannel fun c s => s.tickPhase c).tickChain := by
  unfold State.tick
  simp [hlive, State.tickTimeout_still (Or.inl htimeout), hhold]

/-- R146: every tap's count divides the chain's cycle. -/
theorem tapPeriods_dvd (k : Fin 7) : tapPeriods k ∣ Config.timeBaseCycle := by
  revert k
  decide

/-- R146: the taps of a master period may be read from the count before it is reduced. -/
theorem tapsAt_mod (n : Nat) : tapsAt (n % Config.timeBaseCycle) =
    dividedTaps.filter fun k => decide (n % tapPeriods k = 0) := by
  unfold tapsAt
  congr 1
  funext k
  rw [Nat.mod_mod_of_dvd n (tapPeriods_dvd k), beq_eq_decide]

end Sys2Proof.Machine

namespace Sys2Proof.Proofs
open Machine

/-- Settles O2: the oldest handed event that may be taken, then a waiting request, then the tick. -/
theorem stepOnAnEmptyQueue : Obligations.StepOnAnEmptyQueue := by
  intro s hq waits
  have hwaits : ∀ e, waits e ↔ s.admits e = false := fun e => (s.admits_eq_false e).symm
  refine ⟨fun before e after hhanded hbefore he => ?_, fun hall => ?_, State.tick_inReset, fun hlive => ?_⟩
  · refine (step_empty hq).trans (idle_own (State.ownEvent_handed hhanded ?_ ?_))
    · exact fun x hx => (hwaits x).mp (hbefore x hx)
    · exact Bool.not_eq_false _ ▸ mt (hwaits e).mpr he
  · have hown := State.ownEvent_waiting fun e he => (hwaits e).mp (hall e he)
    refine ⟨fun hlive hready hrequests => ?_, fun h => ?_⟩
    · refine (step_empty hq).trans (idle_own ?_)
      rw [hown]
      simp [hlive, hready, hrequests]
    · refine (step_empty hq).trans (idle_tick ?_)
      rw [hown]
      rcases h with h | h | h <;> simp [h]
  · refine ⟨fun hhold htimeout => ?_, fun n hhold htimeout => ?_, fun hhold htimeout => ?_⟩
    · rw [State.tick_held hlive hhold, State.tickTimeout_still htimeout]
    · rw [State.tick_held hlive hhold, State.tickTimeout_lowers htimeout]
    · obtain ⟨hframe, hphases⟩ := s.tickPhases_eq
      rw [State.tick_counted hlive hhold htimeout]
      generalize (s.eachChannel fun c s => s.tickPhase c) = u at hframe hphases
      obtain ⟨channels, rfl⟩ : ∃ channels, u = { s with channels := channels, handed := _ } := ⟨_, hframe⟩
      refine ⟨hphases, ?_⟩
      simp only [State.tickChain, tapsAt_mod]
      rfl

end Sys2Proof.Proofs
end

section
/-!
The blocks of the walk (R188 to R190): the T3 event that ends the interval begins one, at pages that are passed
over round the range up to the first that is to be read.
-/
namespace Sys2Proof.Machine

variable {s : State}

/-! ### The expiry of the interval as a command -/

theorem exec_walkIntervalExpiry (hlive : s.inReset = false) : exec .walkIntervalExpiry s =
    .next (if s.scanner.atLastCount then s.tapEvent 3 else s).transmit := event_live _ hlive

/-- R188: a walk that waits out the last count of its interval. -/
structure Scanner.Expires (x : Scanner) : Prop where
  walk : x.walk = .on
  suspended : x.suspended = false
  block : x.blockRemaining = none
  interval : x.intervalRemaining = some 1

theorem Scanner.Expires.counting {x : Scanner} (h : x.Expires) : x.counting = true := by
  simp [Scanner.counting, h.walk, h.suspended, h.block]

theorem Scanner.Expires.atLastCount {x : Scanner} (h : x.Expires) : x.atLastCount = true := by
  simp [Scanner.atLastCount, h.counting, h.interval]

/-- R188: a walk that counts no interval, or is not at its last count. -/
theorem Scanner.atLastCount_eq_false {x : Scanner} (h : x.walk ≠ .on ∨ x.suspended = true ∨
    x.blockRemaining.isSome = true ∨ ∀ n, x.intervalRemaining = some n → 1 < n) : x.atLastCount = false := by
  rcases h with h | h | h | h
  · simp [Scanner.atLastCount, Scanner.counting, h]
  · simp [Scanner.atLastCount, Scanner.counting, h]
  · simp [Scanner.atLastCount, Scanner.counting, Option.isNone_eq_false_iff.mpr h]
  · cases hn : x.intervalRemaining with
    | none => simp [Scanner.atLastCount, hn]
    | some n => simp [Scanner.atLastCount, hn, h n hn]

/-! ### The T3 event -/

/-- R149: a tap that no running timer counts reaches no timer. -/
theorem State.eachChannel_tapTimer_still {tap : Fin 8}
    (h : ∀ c, (s.timer c).running = true → (s.timer c).tap ≠ tap) :
    (s.eachChannel fun c u => u.tapTimer c tap) = s := by
  refine List.foldl_fixed' (fun c => ?_) allChannels
  change s.tapTimer c tap = s
  rw [State.tapTimer_eq s c tap fun hrunning htap => absurd htap (h c hrunning),
    if_neg fun hcounts => h c hcounts.1 hcounts.2]

/-- R188: the scanner as a block begins, before its first visit. -/
def Scanner.startBlock (x : Scanner) : Scanner :=
  { x with intervalRemaining := none, blockRemaining := some x.blockSize }

theorem State.tap_begins (hx : s.scanner.Expires)
    (h : ∀ c, (s.timer c).running = true → (s.timer c).tap ≠ 3) :
    s.tap 3 = (s.setScanner s.scanner.startBlock).visitPages s.scanner.blockSize := by
  unfold State.tap
  rw [show tapOf 3 = 3 from rfl, State.eachChannel_tapTimer_still h]
  simp only [State.walkTick, hx.counting, hx.interval, if_true, Nat.le_refl]
  rfl

/-- R190: the block reads the first page that is to be read. -/
theorem State.visitPages_startBlock_read {m : Nat} {i : Image} (hr : s.scanner.inRange)
    (hm : m < s.scanner.blockSize) (hpass : ∀ j, j < m → s.toRead (s.scanner.after j).cursor = none)
    (hread : s.toRead (s.scanner.after m).cursor = some i) :
    (s.setScanner s.scanner.startBlock).visitPages s.scanner.blockSize = s.setScanner { s.scanner.after m with
      intervalRemaining := none, blockRemaining := some (s.scanner.blockSize - m)
      pageInRead := some ⟨(s.scanner.after m).cursor, i.ident, s.scanner.begun⟩
      begun := s.scanner.begun + 1 } :=
  State.visitPages_read m _ (s.setScanner s.scanner.startBlock) i hm hr hpass hread

/-- R189, R190: a block with no page to be read ends at once, and the next interval begins. -/
theorem State.visitPages_startBlock_none (hx : s.scanner.Expires) (hr : s.scanner.inRange)
    (hpass : ∀ j, j < s.scanner.blockSize → s.toRead (s.scanner.after j).cursor = none) :
    (s.setScanner s.scanner.startBlock).visitPages s.scanner.blockSize = s.setScanner
      { s.scanner.after s.scanner.blockSize with intervalRemaining := some s.scanner.interval } := by
  have hends : (s.scanner.startBlock.after s.scanner.blockSize).endBlock =
      { s.scanner.after s.scanner.blockSize with intervalRemaining := some s.scanner.interval } := by
    simp only [Scanner.endBlock, Scanner.startBlock, Scanner.after, hx.walk, hx.block]
  have hvisits := State.visitPages_none s.scanner.blockSize (s.setScanner s.scanner.startBlock) hr hpass
  rw [hvisits, State.setScanner_scanner, hends]
  rfl

end Sys2Proof.Machine

namespace Sys2Proof.Proofs
open Machine

/-- Settles O47: the T3 event of a walk at its last count begins a block, whose visits are those of the range. -/
theorem blocksBegin : Obligations.BlocksBegin := by
  intro s hlive
  refine ⟨fun hwalk hsuspended hblock hinterval => ?_, fun h => ?_⟩
  · have hx : s.scanner.Expires := ⟨hwalk, hsuspended, hblock, hinterval⟩
    have htap : exec .walkIntervalExpiry s = exec (.timeBaseTap 3) s := by
      rw [exec_walkIntervalExpiry hlive, if_pos hx.atLastCount, exec_timeBaseTap hlive]
    refine ⟨htap, fun hhold => ?_, fun hhold hhanded hr htimers => ?_⟩
    · rw [htap, exec_timeBaseTap hlive, State.tapEvent_held hhold]
    · rw [exec_timeBaseTap hlive, State.tapEvent_handed hhold hhanded,
        State.tap_begins (s := s.taken (.timeBaseTap 3)) hx htimers]
      refine ⟨fun m i hm hpass hread => ?_, fun hpass => ?_⟩
      · rw [State.visitPages_startBlock_read (s := s.taken (.timeBaseTap 3)) hr hm hpass hread]
        rfl
      · rw [State.visitPages_startBlock_none (s := s.taken (.timeBaseTap 3)) hx hr hpass]
        rfl
  · rw [exec_walkIntervalExpiry hlive, Scanner.atLastCount_eq_false h]
    rfl

end Sys2Proof.Proofs
end

section
/-!
SET REFERENCE and the ends of a switch (R135 to R139, R141): the answers of the request, and what each event of
the clock hardware does in each state of the clock.
-/
namespace Sys2Proof.Machine

variable {s u : State} {tag code : Byte} {p : List Byte} {target : Source} {cause : SwitchCause}

/-! ### SET REFERENCE (R135) -/

theorem exec_setReference (ho : s.open = true) (ht : takeSetReference code s = (u, p)) :
    exec (.setReference tag code) s = .next (u.withReply 0x48 tag p) := by
  rw [exec_open (take := takeSetReference code) rfl rfl rfl ho, ht]

theorem Clock.referenceBytes_steady {k : Clock} (h : k.state = .steady) :
    k.referenceBytes = [BitVec.ofNat 8 k.source.code, 0, 0, 0] := by
  simp only [Clock.referenceBytes, Clock.targetPart, h]
  rfl

theorem Clock.referenceBytes_switching {k : Clock} (h : k.state = .switching target cause) :
    k.referenceBytes = [BitVec.ofNat 8 k.source.code, 1, 1, BitVec.ofNat 8 target.code] := by
  simp only [Clock.referenceBytes, Clock.targetPart, h]
  rfl

theorem takeSetReference_range (h : Source.ofCode code = none) :
    takeSetReference code s = (s, 0x05 :: s.clock.referenceBytes) := by
  simp only [takeSetReference, h]
  rfl

theorem takeSetReference_busy {source : Source} (h : Source.ofCode code = some source)
    (hstate : s.clock.state = .switching target cause) :
    takeSetReference code s = (s, 0x06 :: s.clock.referenceBytes) := by
  simp only [takeSetReference, h, hstate]
  rfl

theorem takeSetReference_same (h : Source.ofCode code = some s.clock.source) (hstate : s.clock.state = .steady) :
    takeSetReference code s = (s, 0x00 :: s.clock.referenceBytes) := by
  simp only [takeSetReference, h, hstate, if_true]
  rfl

theorem takeSetReference_external (h : Source.ofCode code = some .external) (hsource : s.clock.source = .internal)
    (hstate : s.clock.state = .steady) :
    takeSetReference code s = (s.switchToExternal, 0x00 :: s.switchToExternal.clock.referenceBytes) := by
  simp only [takeSetReference, h, hstate, hsource, reduceCtorEq, if_false]
  rfl

theorem takeSetReference_internal (h : Source.ofCode code = some .internal) (hsource : s.clock.source = .external)
    (hstate : s.clock.state = .steady) : takeSetReference code s =
      (s.switchToInternal .request, 0x00 :: (s.switchToInternal .request).clock.referenceBytes) := by
  simp only [takeSetReference, h, hstate, hsource, reduceCtorEq, if_false]
  rfl

/-! ### The events of the clock hardware (R136 to R139) -/

theorem exec_lockAcquired (hlive : s.inReset = false) : exec .lockAcquired s = .next s.lockAcquired.transmit :=
  event_live _ hlive

theorem exec_lockTimeoutExpiry (hlive : s.inReset = false) : exec .lockTimeoutExpiry s =
    .next (s.taken .lockTimeoutExpiry).lockTimeoutExpired.transmit :=
  event_live (fun s => (s.taken .lockTimeoutExpiry).lockTimeoutExpired) hlive

theorem exec_transferDone (hlive : s.inReset = false) : exec .transferDone s = .next s.transferDone.transmit :=
  event_live _ hlive

theorem exec_referenceLost (hlive : s.inReset = false) : exec .referenceLost s = .next s.referenceLost.transmit :=
  event_live _ hlive

theorem State.lockAcquired_ends (h : s.clock.state = .switching .external cause) :
    s.lockAcquired = s.endSwitch .external .locked .switched := by
  simp only [State.lockAcquired, h]

theorem State.lockTimeoutExpired_ends (h : s.clock.state = .switching .external cause) :
    s.lockTimeoutExpired = s.endSwitch .internal .off .lockFailed := by
  simp only [State.lockTimeoutExpired, h]

/-- R136, R137: outside SWITCHING to EXTERNAL neither event does anything. -/
theorem State.lockEvents_quiet (h : ∀ k, s.clock.state ≠ .switching .external k) :
    s.lockAcquired = s ∧ s.lockTimeoutExpired = s := by
  unfold State.lockAcquired State.lockTimeoutExpired
  split
  · rename_i k hk
    exact absurd hk (h k)
  all_goals exact ⟨rfl, rfl⟩

theorem State.transferDone_quiet (h : ∀ k, s.clock.state ≠ .switching .internal k) : s.transferDone = s := by
  unfold State.transferDone
  split
  · rename_i hk
    exact absurd hk (h _)
  · rename_i hk
    exact absurd hk (h _)
  all_goals rfl

theorem State.referenceLost_begins (hstate : s.clock.state = .steady) (hsource : s.clock.source = .external) :
    s.referenceLost = s.switchToInternal .loss := by
  simp only [State.referenceLost, hstate, hsource]

theorem State.referenceLost_quiet (h : s.clock.state ≠ .steady ∨ s.clock.source = .internal) :
    s.referenceLost = s := by
  unfold State.referenceLost
  split
  · rename_i hstate hsource
    rcases h with h | h
    · exact absurd hstate h
    · cases hsource.symm.trans h
  · rfl

end Sys2Proof.Machine

namespace Sys2Proof.Proofs
open Machine

/-- Settles O21, answer by answer; the two switches are those that the clock begins. -/
theorem setReferenceBeginsASwitch : Obligations.SetReferenceBeginsASwitch := by
  intro tag code s ho
  refine ⟨fun hcode => ⟨fun hstate => ?_, fun t k hstate => ?_⟩, fun src t k hcode hstate => ?_,
    fun hcode hstate => ?_, fun hcode hsource hstate => ?_, fun hcode hsource hstate => ?_⟩
  · rw [exec_setReference ho (takeSetReference_range hcode), Clock.referenceBytes_steady hstate]
  · rw [exec_setReference ho (takeSetReference_range hcode), Clock.referenceBytes_switching hstate]
  · rw [exec_setReference ho (takeSetReference_busy hcode hstate), Clock.referenceBytes_switching hstate]
  · rw [exec_setReference ho (takeSetReference_same hcode hstate), Clock.referenceBytes_steady hstate]
  · rw [exec_setReference ho (takeSetReference_external hcode hsource hstate),
      Clock.referenceBytes_switching (target := .external) (cause := .request) rfl,
      show s.switchToExternal.clock.source = .internal from hsource]
    rfl
  · rw [exec_setReference ho (takeSetReference_internal hcode hsource hstate),
      Clock.referenceBytes_switching (target := .internal) (cause := .request) rfl,
      show (s.switchToInternal .request).clock.source = .external from hsource]
    rfl

/-- Settles O22: each event in the state that its rule gives it, and in every other. -/
theorem switchesEnd : Obligations.SwitchesEnd := by
  intro s hlive untimed ended
  refine ⟨fun k hstate => ⟨?_, ?_⟩, fun hstate => ?_, fun hstate => ?_, fun hstate => ⟨?_, ?_⟩, fun hstate => ?_,
    fun hstate hsource => ?_, fun h => ?_⟩
  · rw [exec_lockAcquired hlive, State.lockAcquired_ends hstate]
    rfl
  · rw [exec_lockTimeoutExpiry hlive, State.lockTimeoutExpired_ends (s := s.taken _) hstate]
    rfl
  · rw [exec_transferDone hlive]
    simp only [State.transferDone, hstate]
    rfl
  · rw [exec_transferDone hlive]
    simp only [State.transferDone, hstate]
    rfl
  · rw [exec_lockAcquired hlive, (State.lockEvents_quiet hstate).1]
  · rw [exec_lockTimeoutExpiry hlive, (State.lockEvents_quiet (s := s.taken _) hstate).2]
    rfl
  · rw [exec_transferDone hlive, State.transferDone_quiet hstate]
  · rw [exec_referenceLost hlive, State.referenceLost_begins hstate hsource]
    rfl
  · rw [exec_referenceLost hlive, State.referenceLost_quiet h]

end Sys2Proof.Proofs
end

section
/-!
SET RATE and READ CLOCK (R144, R155): the answers of the one, and the reply of the other in its three parts, of
which the middle one follows the state of the clock.
-/
namespace Sys2Proof.Machine

variable {s u : State} {tag : Byte} {c : Chan} {d : Quad} {p : List Byte}

/-! ### SET RATE (R144) -/

theorem exec_setRate (ho : s.open = true) (ht : takeSetRate (BitVec.ofNat 8 c.val) d s = (u, p)) :
    exec (.setRate tag (BitVec.ofNat 8 c.val) d) s = .next (u.withReply 0x4A tag p) := by
  rw [exec_open (take := takeSetRate (BitVec.ofNat 8 c.val) d) rfl rfl rfl ho, ht]

theorem takeSetRate_range (h : d.toNat = 0 ∨ 65536 < d.toNat) :
    takeSetRate (BitVec.ofNat 8 c.val) d s = (s, 0x05 :: byte4 (s.rate c).decimation) := by
  simp only [takeSetRate, chanOfCode_ofNat, if_pos h]
  rfl

theorem takeSetRate_active (h : ¬(d.toNat = 0 ∨ 65536 < d.toNat)) (ha : (s.engine c).run.active = true) :
    takeSetRate (BitVec.ofNat 8 c.val) d s = (s, 0x13 :: byte4 (s.rate c).decimation) := by
  simp only [takeSetRate, chanOfCode_ofNat, if_neg h, if_pos ha]
  rfl

theorem takeSetRate_taken (h : ¬(d.toNat = 0 ∨ 65536 < d.toNat)) (ha : (s.engine c).run.active = false) :
    takeSetRate (BitVec.ofNat 8 c.val) d s =
      ((s.setRate c ⟨d.toNat, 0⟩).withdraw [.samplePeriod c], 0x00 :: bytesOfQuad d) := by
  simp only [takeSetRate, chanOfCode_ofNat, if_neg h, ha, Bool.false_eq_true, if_false]
  rfl

/-- R144: only the sample periods of the channel are withdrawn. -/
theorem State.withdraw_one (s : State) (e : Instr) :
    s.withdraw [e] = { s with handed := s.handed.filter fun x => decide (x ≠ e) } := by
  simp only [State.withdraw, List.mem_singleton]

/-! ### READ CLOCK (R155) -/

/-- R155: the state of the switch on the link: state, target and cause. -/
def ClockState.bytes : ClockState → List Byte
  | .steady => [0, 0, 0, 0]
  | .switching target cause => [1, 1, BitVec.ofNat 8 target.code, BitVec.ofNat 8 cause.code]

/-- R155: what remains of the lock timeout on the link. -/
def timeoutBytes (left : Option Nat) : List Byte :=
  optionalPart 1 (left.map fun n => byte1 (timeoutMs n))

theorem exec_readClock (ho : s.open = true) : exec (.readClock tag) s = .next (s.withReply 0x49 tag
    (0x00 :: ([BitVec.ofNat 8 s.clock.source.code] ++ s.clock.state.bytes ++
      [BitVec.ofNat 8 s.clock.lock.code, if s.clock.hold then 1 else 0] ++ timeoutBytes s.clock.lockTimeout ++
      ((if s.straps.refDefault then 1 else 0) ::
        s.channels.toList.flatMap fun x => byte4 x.rate.decimation)))) := by
  rw [exec_open (take := takeReadClock) rfl rfl rfl ho]
  unfold takeReadClock
  cases hstate : s.clock.state <;> simp [answer, hstate, ClockState.bytes, byte1, byteOfBool, timeoutBytes] <;> rfl

end Sys2Proof.Machine

namespace Sys2Proof.Proofs
open Machine

/-- Settles O24: the answers of SET RATE by the decimation and the run state, and the reply of READ CLOCK in each
state of the clock. -/
theorem ratesAndTheClock : Obligations.RatesAndTheClock := by
  intro tag c d s ho lockCode held source rest
  have hlock : BitVec.ofNat 8 s.clock.lock.code = lockCode := by
    cases h : s.clock.lock <;> simp only [lockCode, h] <;> rfl
  have hsource : BitVec.ofNat 8 s.clock.source.code = source := by
    cases h : s.clock.source <;> simp only [source, h] <;> rfl
  refine ⟨fun hd => exec_setRate ho (takeSetRate_range hd),
    fun hlow hhigh ha => exec_setRate ho (takeSetRate_active (by omega) ha),
    fun hlow hhigh ha => ?_, fun hstate htimeout => ?_, fun n hstate htimeout => ?_,
    fun htimeout => ⟨fun hstate => ?_, fun hstate => ?_⟩⟩
  · rw [exec_setRate ho (takeSetRate_taken (by omega) ha), State.withdraw_one]
    rfl
  all_goals
    rw [exec_readClock ho, hlock, hsource, hstate, htimeout]
    rfl

end Sys2Proof.Proofs
end

section
/-!
The arithmetic of a played code (R160, R161): the division is rounded to the nearest integer, saturation limits to
the clamp pair, and a code before saturation is bounded by the widths of its factors and its offset.
-/
namespace Sys2Proof.Machine

/-! ### Rounding (R160) -/

theorem roundQuotient_of_nonneg {q : Int} (h : 0 ≤ q) : roundQuotient q = (q + 134217728) / 268435456 := if_pos h

theorem roundQuotient_of_neg {q : Int} (h : q < 0) : roundQuotient q = -((-q + 134217728) / 268435456) :=
  if_neg (by omega)

/-- R160: no integer is nearer to the quotient, and of two that are as near the one away from zero is taken. -/
theorem roundQuotient_nearest (q : Int) :
    2 * (roundQuotient q * 268435456 - q) ≤ 268435456 ∧
    -268435456 ≤ 2 * (roundQuotient q * 268435456 - q) ∧
    (2 * (roundQuotient q * 268435456 - q) = 268435456 → 0 < q) ∧
    (2 * (roundQuotient q * 268435456 - q) = -268435456 → q < 0) := by
  rcases lt_or_ge q 0 with h | h
  · rw [roundQuotient_of_neg h]
    omega
  · rw [roundQuotient_of_nonneg h]
    omega

theorem abs_roundQuotient_le {q : Int} {n : Nat} (h : |q| ≤ n * 268435456) : |roundQuotient q| ≤ n := by
  obtain ⟨hlow, hhigh⟩ := abs_le.mp h
  obtain ⟨habove, hbelow, -, -⟩ := roundQuotient_nearest q
  exact abs_le.mpr ⟨by omega, by omega⟩

/-! ### Saturation (R161) -/

section
variable {g : OutputSettings} {v : Int}

theorem saturate_below (h : v < g.clampLow.toInt) : saturate g v = (g.clampLow, true) := if_pos h

theorem saturate_above (hpair : g.clampLow.toInt ≤ g.clampHigh.toInt) (h : g.clampHigh.toInt < v) :
    saturate g v = (g.clampHigh, true) := by
  rw [saturate, if_neg (by omega), if_pos h]

theorem saturate_within (hlow : g.clampLow.toInt ≤ v) (hhigh : v ≤ g.clampHigh.toInt) :
    saturate g v = (BitVec.ofInt 16 v, false) := by
  rw [saturate, if_neg (by omega), if_neg (by omega)]

/-- A value within a clamp pair is that of a code. -/
theorem toInt_ofInt_within (hlow : g.clampLow.toInt ≤ v) (hhigh : v ≤ g.clampHigh.toInt) :
    (BitVec.ofInt 16 v).toInt = v := by
  have hleast := g.clampLow.le_toInt
  have hgreatest := g.clampHigh.toInt_lt
  exact BitVec.toInt_ofInt_eq_self (by decide) (by omega) (by omega)

end

/-! ### The value before saturation (R160) -/

theorem abs_toInt_le (x : Half) : |x.toInt| ≤ 32768 := by
  have hleast := x.le_toInt
  have hgreatest := x.toInt_lt
  exact abs_le.mpr ⟨by omega, by omega⟩

theorem abs_product_le (x y z : Half) : |x.toInt * y.toInt * z.toInt| ≤ (131072 : Nat) * 268435456 :=
  calc |x.toInt * y.toInt * z.toInt|
    _ = |x.toInt| * |y.toInt| * |z.toInt| := by rw [abs_mul, abs_mul]
    _ ≤ 32768 * 32768 * 32768 := by gcongr <;> exact abs_toInt_le _
    _ = (131072 : Nat) * 268435456 := by norm_num

theorem scaledCode_bounds (g : OutputSettings) (scale : Option Half) (x : Half) :
    -163840 ≤ scaledCode g scale x ∧ scaledCode g scale x ≤ 163839 := by
  obtain ⟨hlow, hhigh⟩ := abs_le.mp (abs_roundQuotient_le (abs_product_le x g.gain (scale.getD 0x4000)))
  have hleast := g.offset.le_toInt
  have hgreatest := g.offset.toInt_lt
  unfold scaledCode
  omega

end Sys2Proof.Machine

namespace Sys2Proof.Proofs
open Machine

/-- Settles O27: rounding to the nearest integer, saturation to the clamp pair, and the bounds of a code before
saturation. -/
theorem playedCodesAreRoundedAndClamped : Obligations.PlayedCodesAreRoundedAndClamped := by
  refine ⟨roundQuotient_nearest, fun g v hpair => ⟨saturate_below, saturate_above hpair, fun hlow hhigh => ?_⟩,
    fun g scale x => ⟨rfl, scaledCode_bounds g scale x⟩⟩
  rw [saturate_within hlow hhigh]
  exact ⟨toInt_ofInt_within hlow hhigh, rfl⟩

end Sys2Proof.Proofs
end

section
/-!
SET OUTPUT and READ OUTPUT (R168, R169): the answers of the one by its codes and its rest level, and the reply of the
other as the link carries it.
-/
namespace Sys2Proof.Machine

variable {s u : State} {tag e a b : Byte} {c : Chan} {g : OutputSettings} {p : List Byte}

/-! ### SET OUTPUT (R168) -/

theorem exec_setOutput (ho : s.open = true)
    (ht : takeSetOutput (BitVec.ofNat 8 c.val) g.gain g.offset g.clampLow g.clampHigh g.rest e a b s = (u, p)) :
    exec (.setOutput tag (BitVec.ofNat 8 c.val) g.gain g.offset g.clampLow g.clampHigh g.rest e a b) s =
      .next (u.withReply 0x50 tag p) := by
  rw [exec_open rfl rfl rfl ho, ht]

theorem takeSetOutput_badCode (h : boolOfCode e = none ∨ boolOfCode a = none ∨ boolOfCode b = none) :
    takeSetOutput (BitVec.ofNat 8 c.val) g.gain g.offset g.clampLow g.clampHigh g.rest e a b s = (s, [0x05]) := by
  unfold takeSetOutput
  split
  · rename_i he ha hb
    simp only [he, ha, hb, reduceCtorEq, or_self] at h
  · rfl

section
variable (he : boolOfCode e = some g.enable) (ha : boolOfCode a = some g.invertA)
  (hb : boolOfCode b = some g.invertB)
include he ha hb

theorem takeSetOutput_badRest (h : g.rest.toInt < g.clampLow.toInt ∨ g.clampHigh.toInt < g.rest.toInt) :
    takeSetOutput (BitVec.ofNat 8 c.val) g.gain g.offset g.clampLow g.clampHigh g.rest e a b s = (s, [0x05]) := by
  simp only [takeSetOutput, chanOfCode_ofNat, he, ha, hb, if_pos h, ite_self]
  rfl

theorem takeSetOutput_taken (hlow : g.clampLow.toInt ≤ g.rest.toInt) (hhigh : g.rest.toInt ≤ g.clampHigh.toInt) :
    takeSetOutput (BitVec.ofNat 8 c.val) g.gain g.offset g.clampLow g.clampHigh g.rest e a b s =
      (s.setOutput c { s.output c with pending := some g }, 0x00 :: g.bytes) := by
  have hpair : ¬g.clampHigh.toInt < g.clampLow.toInt := by omega
  have hrest : ¬(g.rest.toInt < g.clampLow.toInt ∨ g.clampHigh.toInt < g.rest.toInt) := by omega
  simp only [takeSetOutput, chanOfCode_ofNat, he, ha, hb, if_neg hpair, if_neg hrest]
  rfl

end

/-! ### READ OUTPUT (R169) -/

theorem exec_readOutput (ho : s.open = true) : exec (.readOutput tag (BitVec.ofNat 8 c.val)) s =
    .next ((s.setOutput c { s.output c with clipped := false }).withReply 0x51 tag
      (0x00 :: (s.chan c).outputBytes)) := by
  rw [exec_open (take := takeReadOutput (BitVec.ofNat 8 c.val)) rfl rfl rfl ho]
  simp only [takeReadOutput, chanOfCode_ofNat]
  rfl

/-- R169: the kind of the port code on the link. -/
theorem Channel.byte1_portKind (x : Channel) : byte1 x.portKind.code =
    [if x.output.portKind = .rest then 2
      else if x.output.portKind = .carried ∨ x.engine.held = true then 1 else 0] := by
  unfold Channel.portKind
  cases x.output.portKind with
  | played => cases x.engine.held <;> rfl
  | carried => rfl
  | rest => rfl

/-- R169: the fields of the reply, the code's kind and the single bits as bytes. -/
theorem Channel.outputBytes_eq (x : Channel) : x.outputBytes =
    x.output.inForce.bytes ++ optionalPart 13 (x.output.pending.map OutputSettings.bytes) ++
      bytesOfHalf x.output.port ++
      [if x.output.portKind = .rest then 2
        else if x.output.portKind = .carried ∨ x.engine.held = true then 1 else 0,
        if x.output.levelA then 1 else 0, if x.output.levelB then 1 else 0,
        if x.output.lineA then 1 else 0, if x.output.lineB then 1 else 0,
        if x.output.inForce.enable then 1 else 0, if x.output.clipped then 1 else 0] := by
  rw [Channel.outputBytes, Channel.byte1_portKind]
  simp only [List.append_assoc]
  rfl

end Sys2Proof.Machine

namespace Sys2Proof.Proofs
open Machine

/-- Settles O52: the refusals of SET OUTPUT and its pending record, and the reply of READ OUTPUT. -/
theorem outputRequests : Obligations.OutputRequests := by
  intro tag e a b g c s ho bit settings o
  have hsettings : OutputSettings.bytes = settings := funext fun g => by
    simp only [settings, bit, OutputSettings.bytes, byteOfBool, List.append_assoc, List.cons_append, List.nil_append]
  refine ⟨fun he ha hb => ⟨fun hlow hhigh => ?_,
      fun hrest => exec_setOutput ho (takeSetOutput_badRest he ha hb hrest)⟩,
    fun hcode => exec_setOutput ho (takeSetOutput_badCode hcode), ?_⟩
  · rw [exec_setOutput ho (takeSetOutput_taken he ha hb hlow hhigh), hsettings]
  · rw [exec_readOutput ho, Channel.outputBytes_eq, hsettings]
    rfl

end Sys2Proof.Proofs
end

section
/-!
The requests of the Library Importer that begin and end an import: START IMPORT (R175, R176), and CANCEL IMPORT and
CLOSE LIBRARY (R172, R181) over the one way in which an import in flight is cancelled (R180).
-/
namespace Sys2Proof.Machine

/-! ### START IMPORT (R175, R176) -/

theorem State.libraryClosed_iff {s : State} :
    s.libraryClosed = true ↔ s.straps.libEn = false ∨ s.importer.closed = true := by
  simp [State.libraryClosed]

/-- R175: the fields of START IMPORT, apart from the handle, name no range of the flash that an import can read, or
its flag has no code. -/
def importFieldsOutOfRange (a n : Quad) (commit : Byte) : Prop :=
  boolOfCode commit = none ∨ a.toNat % 2 = 1 ∨ 16777214 < a.toNat ∨ n.toNat = 0 ∨ 8388608 < n.toNat ∨
    16777216 < a.toNat + 2 * n.toNat

section
variable {s u : State} {tag commit : Byte} {h : Half} {a n : Quad} {p : List Byte}

theorem exec_startImport (ho : s.open = true) (ht : takeStartImport h a n commit s = (u, p)) :
    exec (.startImport tag h a n commit) s = .next (u.withReply 0x20 tag p) := by
  rw [exec_open (take := takeStartImport h a n commit) rfl rfl rfl ho, ht]

theorem takeStartImport_badHandle (hh : 1023 < h.toNat) : takeStartImport h a n commit s = refuse .range s := by
  simp only [takeStartImport, if_pos hh]

theorem takeStartImport_closed (hh : h.toNat ≤ 1023) (hs : s.libraryClosed = true) :
    takeStartImport h a n commit s = refuse .libraryClosed s := by
  simp only [takeStartImport, if_neg (Nat.not_lt.mpr hh), if_pos hs]

theorem takeStartImport_busy (hh : h.toNat ≤ 1023) (hs : ¬s.libraryClosed = true)
    (hr : s.importer.record.isSome = true) : takeStartImport h a n commit s = refuse .busy s := by
  simp only [takeStartImport, if_neg (Nat.not_lt.mpr hh), if_neg hs, if_pos hr]

theorem takeStartImport_incomingExists (hh : h.toNat ≤ 1023) (hs : ¬s.libraryClosed = true)
    (hr : s.importer.record = none) (hin : (s.handle h.toNat).incoming.isSome = true) :
    takeStartImport h a n commit s = refuse .incomingExists s := by
  simp only [takeStartImport, if_neg (Nat.not_lt.mpr hh), if_neg hs, hr, Option.isSome_none, Bool.false_eq_true,
    if_false, if_pos hin]

section
variable (hh : h.toNat ≤ 1023) (hs : ¬s.libraryClosed = true) (hr : s.importer.record = none)
  (hin : (s.handle h.toNat).incoming = none)
include hh hs hr hin

theorem takeStartImport_badFields (hb : importFieldsOutOfRange a n commit) :
    takeStartImport h a n commit s = refuse .range s := by
  simp only [takeStartImport, if_neg (Nat.not_lt.mpr hh), if_neg hs, hr, hin, Option.isSome_none,
    Bool.false_eq_true, if_false]
  split
  · rfl
  · rename_i flag hf
    rw [importFieldsOutOfRange, hf] at hb
    exact if_pos (hb.resolve_left (Option.some_ne_none flag))

theorem takeStartImport_noSpace {flag : Bool} (hb : ¬importFieldsOutOfRange a n commit)
    (hf : boolOfCode commit = some flag) (hi : s.createImage h.toNat n.toNat .imported flag = none) :
    takeStartImport h a n commit s = refuse .noSpace s := by
  simp only [takeStartImport, if_neg (Nat.not_lt.mpr hh), if_neg hs, hr, hin, Option.isSome_none,
    Bool.false_eq_true, if_false, hf, if_neg fun hc => hb (Or.inr hc), hi]

theorem takeStartImport_begins {flag : Bool} {i : Image} (hb : ¬importFieldsOutOfRange a n commit)
    (hf : boolOfCode commit = some flag)
    (hi : s.createImage h.toNat n.toNat .imported flag = some (i, u)) :
    takeStartImport h a n commit s = answer .ok (byte2 i.serial ++ byte2 i.firstPage ++ byte2 i.pageCount)
      (u.beginRead ⟨h.toNat, i.serial, a.toNat, n.toNat, i.pageCount, 0, flag⟩) := by
  simp only [takeStartImport, if_neg (Nat.not_lt.mpr hh), if_neg hs, hr, hin, Option.isSome_none,
    Bool.false_eq_true, if_false, hf, if_neg fun hc => hb (Or.inr hc), hi]

end

end

/-- R173, R176: the first transaction reads a whole page, or all samples of an image of one page. -/
theorem State.beginRead_first (s : State) (h serial a : Nat) {n : Nat} (flag : Bool) (hn : n ≠ 0) :
    s.beginRead ⟨h, serial, a, n, pagesFor n, 0, flag⟩ = { s with importer := { s.importer with
      record := some ⟨h, serial, a, n, pagesFor n, 0, flag⟩
      reading := some ⟨s.importer.begun, a, if n ≤ 256 then 2 * n else 512⟩
      begun := s.importer.begun + 1 } } := by
  have hone : 0 + 1 = pagesFor n ↔ n ≤ 256 := by unfold pagesFor; omega
  have hbytes : (if 0 + 1 = pagesFor n then 2 * (n - 256 * (pagesFor n - 1)) else 512) =
      if n ≤ 256 then 2 * n else 512 := by
    refine if_ctx_congr hone (fun hle => ?_) fun _ => rfl
    rw [← hone.mpr hle]
    rfl
  simp only [State.beginRead, hbytes]
  rfl

/-! ### An import that is cancelled (R180) -/

section
variable {s : State} {r : ImportRecord} {i : Image}

theorem State.cancelImport_none (cause : CancelCause) (hr : s.importer.record = none) :
    s.cancelImport cause = s := by
  simp only [State.cancelImport, hr]

/-- R7, R180: the record and the transaction end, the notice is queued, and the image goes with its extent. -/
theorem State.cancelImport_some (cause : CancelCause) (hr : s.importer.record = some r)
    (hin : (s.handle r.handle).incoming = some i) :
    s.cancelImport cause =
      { (s.setHandle r.handle ⟨(s.handle r.handle).current, none⟩).notify
          (.importEnd r.handle r.serial (.cancelled r.nextPage cause)) with
        importer := { s.importer with record := none, reading := none }
        free := giveBack ⟨i.firstPage, i.pageCount⟩ s.free } := by
  have hfilled : ((({ s with importer := { s.importer with record := none, reading := none } }).notify
      (.importEnd r.handle r.serial (.cancelled r.nextPage cause))).handle r.handle).incoming = some i := hin
  simp only [State.cancelImport, hr, State.discardIncoming, hfilled]
  rfl

/-! ### CANCEL IMPORT and CLOSE LIBRARY (R172, R181) -/

variable {u : State} {tag : Byte} {p : List Byte}

theorem exec_cancelImport (ho : s.open = true) (ht : takeCancelImport s = (u, p)) :
    exec (.cancelImport tag) s = .next (u.withReply 0x21 tag p) := by
  rw [exec_open (take := takeCancelImport) rfl rfl rfl ho, ht]

theorem exec_closeLibrary (ho : s.open = true) (ht : takeCloseLibrary s = (u, p)) :
    exec (.closeLibrary tag) s = .next (u.withReply 0x23 tag p) := by
  rw [exec_open (take := takeCloseLibrary) rfl rfl rfl ho, ht]

theorem takeCancelImport_none (hr : s.importer.record = none) : takeCancelImport s = refuse .badState s := by
  simp only [takeCancelImport, hr]

theorem takeCancelImport_some (hr : s.importer.record = some r) :
    takeCancelImport s = answer .ok r.progressBytes (s.cancelImport .request) := by
  simp only [takeCancelImport, hr]

/-- R172: the port is closed. -/
def State.closePort (s : State) : State := { s with importer := { s.importer with closed := true } }

theorem takeCloseLibrary_absent (hl : s.straps.libEn = false) :
    takeCloseLibrary s = answer .ok (optionalPart 6 none) s := by
  simp only [takeCloseLibrary, hl, Bool.not_false, if_true]

theorem takeCloseLibrary_present (hl : s.straps.libEn = true) :
    takeCloseLibrary s = answer .ok (optionalPart 6 (s.importer.record.map ImportRecord.progressBytes))
      (s.closePort.cancelImport .close) := by
  simp only [takeCloseLibrary, hl, Bool.not_true, Bool.false_eq_true, if_false]
  rfl

end

end Sys2Proof.Machine

namespace Sys2Proof.Proofs
open Machine

/-- Settles O43, by the answers of START IMPORT, the image that is created and the first transaction. -/
theorem importsStart : Obligations.ImportsStart := by
  intro tag commit h a n s ho shut bad
  have hclosed : s.libraryClosed = true ↔ shut := State.libraryClosed_iff
  refine ⟨fun hh => exec_startImport ho (takeStartImport_badHandle hh),
    fun hh hs => exec_startImport ho (takeStartImport_closed hh (hclosed.mpr hs)),
    fun hh hs hr => exec_startImport ho (takeStartImport_busy hh (mt hclosed.mp hs) hr),
    fun hh hs hr hin => exec_startImport ho (takeStartImport_incomingExists hh (mt hclosed.mp hs) hr hin),
    fun hh hs hr hin => ⟨fun hb => exec_startImport ho
      (takeStartImport_badFields hh (mt hclosed.mp hs) hr hin hb), fun hb ha => ?_,
      fun flag p rest hb hf ha => ?_⟩⟩
  · obtain ⟨flag, hf⟩ := Option.ne_none_iff_exists'.mp fun hc => hb (Or.inl hc)
    exact exec_startImport ho (takeStartImport_noSpace hh (mt hclosed.mp hs) hr hin hb hf
      (State.createImage_eq_none ha))
  · have hn : n.toNat ≠ 0 := fun hc => hb (Or.inr (Or.inr (Or.inr (Or.inl hc))))
    obtain ⟨i, u, hcreate, rfl, rfl⟩ :=
      State.exists_createImage (h := h.toNat) (source := .imported) (flag := flag) ha
    have htake := takeStartImport_begins hh (mt hclosed.mp hs) hr hin hb hf hcreate
    rw [State.beginRead_first _ _ _ _ _ hn] at htake
    refine ⟨_, _, exec_startImport ho htake, rfl, ?_, fun k hk => ?_, rfl⟩
    · exact State.handle_setHandle_self _ _ (by simp [HandleRecord.empty])
    · exact State.handle_setHandle_ne _ hk _

/-- Settles O45, by the answers of the two requests and the import that each cancels. -/
theorem importsAreCancelled : Obligations.ImportsAreCancelled := by
  intro tag s ho
  refine ⟨fun hr => exec_cancelImport ho (takeCancelImport_none hr),
    fun hl => exec_closeLibrary ho (takeCloseLibrary_absent hl), fun hl hr => exec_closeLibrary ho ?_,
    fun r i hr hin => ⟨exec_cancelImport ho ?_, fun hl => exec_closeLibrary ho ?_⟩⟩
  · rw [takeCloseLibrary_present hl, hr, State.cancelImport_none (s := s.closePort) .close hr]
    rfl
  · rw [takeCancelImport_some hr, State.cancelImport_some .request hr hin]
    rfl
  · rw [takeCloseLibrary_present hl, hr, State.cancelImport_some (s := s.closePort) .close hr hin]
    rfl

end Sys2Proof.Proofs
end

section
/-!
The walk under the work of the other blocks (R186, R197): the channels, the images, the imports, the time base,
the reference clock and the link's frames write neither the scanner nor the standby of the link; said once for
each operation.
-/
namespace Sys2Proof.Machine

/-- R186, R197: the scanner, and whether the part is in standby. -/
def State.watch (s : State) : Scanner × Bool := (s.scanner, s.link.standby)

theorem State.watch_eq_iff {s t : State} :
    t.watch = s.watch ↔ t.scanner = s.scanner ∧ t.link.standby = s.link.standby := Prod.mk.injEq .. ▸ Iff.rfl

section
variable (s : State) (c : Chan)

/-! ### Writes of other parts -/

@[simp] theorem Link.notify_standby (l : Link) (n : Notice) : (l.notify n).standby = l.standby := by
  rw [Link.notify_frame]

@[simp] theorem Link.transmit_standby (l : Link) : l.transmit.standby = l.standby := by
  rw [Link.transmit_frame]

@[simp] theorem Link.addLinkReply_standby (l : Link) (f : Frame) : (l.addLinkReply f).standby = l.standby := by
  unfold Link.addLinkReply
  split <;> rfl

@[simp] theorem Link.arrive_standby (l : Link) (f : Frame) : (l.arrive f).standby = l.standby := by
  unfold Link.arrive
  split
  · rfl
  · exact l.addLinkReply_standby _

@[simp] theorem State.watch_notify (n : Notice) : (s.notify n).watch = s.watch :=
  State.watch_eq_iff.mpr ⟨rfl, s.link.notify_standby n⟩

@[simp] theorem State.watch_transmit : s.transmit.watch = s.watch :=
  State.watch_eq_iff.mpr ⟨rfl, s.link.transmit_standby⟩

@[simp] theorem State.watch_setEngine (e : Engine) : (s.setEngine c e).watch = s.watch := rfl
@[simp] theorem State.watch_setTimer (t : Timer) : (s.setTimer c t).watch = s.watch := rfl
@[simp] theorem State.watch_setLatches (l : Latches) : (s.setLatches c l).watch = s.watch := rfl
@[simp] theorem State.watch_setRate (r : Rate) : (s.setRate c r).watch = s.watch := rfl
@[simp] theorem State.watch_setOutput (o : Output) : (s.setOutput c o).watch = s.watch := rfl
@[simp] theorem State.watch_hand (e : Instr) : (s.hand e).watch = s.watch := rfl
@[simp] theorem State.watch_taken (e : Instr) : (s.taken e).watch = s.watch := rfl
@[simp] theorem State.watch_withdraw (es : List Instr) : (s.withdraw es).watch = s.watch := rfl
@[simp] theorem State.watch_setHandle (h : Nat) (r : HandleRecord) : (s.setHandle h r).watch = s.watch := rfl
@[simp] theorem State.watch_setReceive (r : Receive) : (s.setReceive r).watch = s.watch := rfl
@[simp] theorem State.watch_returnPages (i : Image) : (s.returnPages i).watch = s.watch := rfl
@[simp] theorem State.watch_mapImages (f : Image → Image) : (s.mapImages f).watch = s.watch := rfl
@[simp] theorem State.watch_beginRead (r : ImportRecord) : (s.beginRead r).watch = s.watch := rfl

end

/-- Actions in turn, none of which writes the walk. -/
theorem State.watch_foldl {α : Type} (f : State → α → State) (hf : ∀ u a, (f u a).watch = u.watch) :
    ∀ (l : List α) (s : State), (l.foldl f s).watch = s.watch := by
  intro l
  induction l with
  | nil => intro s; rfl
  | cons a l ih => intro s; rw [List.foldl_cons, ih, hf]

theorem State.watch_eachChannel (f : Chan → State → State) (hf : ∀ c u, (f c u).watch = u.watch)
    (s : State) : (s.eachChannel f).watch = s.watch :=
  State.watch_foldl (fun u c => f c u) (fun u c => hf c u) allChannels s

/-! ### Images and imports -/

section
variable (s : State)

@[simp] theorem State.watch_release (n : Nat) : (s.release n).watch = s.watch := by
  unfold State.release
  simp only
  split
  · rfl
  · rw [State.watch_notify]; rfl

@[simp] theorem State.watch_endReference (c : Chan) : (s.endReference c).watch = s.watch := by
  unfold State.endReference
  split <;> simp

@[simp] theorem State.watch_discardIncoming (h : Nat) : (s.discardIncoming h).watch = s.watch := by
  unfold State.discardIncoming
  split <;> simp

@[simp] theorem State.watch_cancelImport (cause : CancelCause) : (s.cancelImport cause).watch = s.watch := by
  unfold State.cancelImport
  split
  · rfl
  · rw [State.watch_discardIncoming, State.watch_notify]; rfl

@[simp] theorem State.watch_dropIncoming (h : Nat) (cause : CancelCause) :
    (s.dropIncoming h cause).2.watch = s.watch := by
  unfold State.dropIncoming
  split <;> simp

@[simp] theorem State.watch_dispose (h : Nat) (i : Image) : (s.dispose h i).2.watch = s.watch := by
  unfold State.dispose
  split
  · simp
  · rfl

theorem State.watch_createImage {s u : State} {h n : Nat} {source : FillSource} {flag : Bool} {i : Image}
    (hc : s.createImage h n source flag = some (i, u)) : u.watch = s.watch := by
  obtain ⟨first, free, -, -, rfl⟩ := State.createImage_some hc
  rfl

theorem State.watch_commitAttempt {s u : State} {h : Nat} {i : Image} {d : Option (Nat × Disposition)}
    (hc : s.commitAttempt h i = .ok (d, u)) : u.watch = s.watch := by
  unfold State.commitAttempt at hc
  split at hc
  · obtain ⟨-, rfl⟩ := Prod.mk.inj (Except.ok.inj hc)
    rfl
  · split at hc
    · cases hc
    · obtain ⟨-, rfl⟩ := Prod.mk.inj (Except.ok.inj hc)
      simp

@[simp] theorem State.watch_writeImagePage (h : Nat) (i : Image) (k : Nat) (data : List Byte) :
    (s.writeImagePage h i k data).watch = s.watch := by
  unfold State.writeImagePage
  simp only
  split <;> rfl

@[simp] theorem State.watch_completePage (r : ImportRecord) (data : List Byte) :
    (s.completePage r data).watch = s.watch := by
  have hends : ∀ (u : State) (i : Image), (u.completeImport r i).watch = u.watch := fun u i => by
    unfold State.completeImport
    simp only [State.watch_notify]
    split
    · split
      · rfl
      · rename_i hc
        exact (State.watch_commitAttempt hc :)
    · rfl
  unfold State.completePage
  split
  · rfl
  · simp only
    split <;> simp [hends]

/-- R192: a mark is made at the images. -/
@[simp] theorem State.watch_compareRead (r : PageRead) : (s.compareRead r).watch = s.watch := by
  unfold State.compareRead State.markDamage
  repeat' split
  all_goals simp

@[simp] theorem State.watch_decayPage (page : Nat) (data : List Byte) :
    (s.decayPage page data).watch = s.watch := by
  unfold State.decayPage
  split <;> rfl

end

/-! ### Conditions, flags and timers -/

section
variable (s : State)

@[simp] theorem State.watch_test (c : Chan) (q : Condition) : (s.test c q).2.watch = s.watch := by
  have hconsume : ∀ o, (s.consume c o).watch = s.watch := fun o => by cases o <;> rfl
  unfold State.test
  repeat' split
  all_goals simp [hconsume]

@[simp] theorem State.watch_handChanges (f : Chan → Operand → Bool) :
    (s.handChanges f).watch = s.watch := by
  rw [State.handChanges_eq]
  rfl

@[simp] theorem State.watch_writeFlags (flags : BitVec 8) : (s.writeFlags flags).watch = s.watch := by
  unfold State.writeFlags
  exact State.watch_handChanges _ _

@[simp] theorem State.watch_triggerArrival (n : Fin 4) : (s.triggerArrival n).watch = s.watch := by
  unfold State.triggerArrival
  rw [State.watch_handChanges]
  refine State.watch_eachChannel _ (fun c u => ?_) s
  split <;> simp

@[simp] theorem State.watch_softwareTrigger (m : Byte) : (s.softwareTrigger m).watch = s.watch := by
  unfold State.softwareTrigger
  rw [State.watch_handChanges]
  refine State.watch_eachChannel _ (fun c u => ?_) s
  split <;> simp

@[simp] theorem State.watch_changeTriggerLine (n : Fin 4) (high : Bool) :
    (s.changeTriggerLine n high).watch = s.watch := by
  unfold State.changeTriggerLine
  simp only
  split
  · exact State.watch_triggerArrival _ n
  · rfl

@[simp] theorem State.watch_tapTimer (c : Chan) (tap : Fin 8) : (s.tapTimer c tap).watch = s.watch := by
  have hexpires : (s.expireTimer c).watch = s.watch := by
    rw [State.expireTimer_eq, State.watch_eq_iff]
    refine ⟨rfl, ?_⟩
    simp only
    split <;> simp
  unfold State.tapTimer
  simp only
  repeat' split
  all_goals simp [hexpires]

/-! ### The time base and the reference clock -/

@[simp] theorem State.watch_divide (k : Fin 7) : (s.divide k).watch = s.watch := rfl

@[simp] theorem State.watch_tick : s.tick.watch = s.watch := by
  have htimeout : s.tickTimeout.watch = s.watch := by
    unfold State.tickTimeout
    simp only
    repeat' split
    all_goals rfl
  have hchain : ∀ u : State, u.tickChain.watch = u.watch := fun u => rfl
  unfold State.tick
  simp only
  repeat' split
  · rfl
  · exact htimeout
  · rw [hchain, s.tickTimeout.tickPhases_eq.1]
    exact htimeout

@[simp] theorem State.watch_endSwitch (source : Source) (lock : LockStatus) (cause : ReferenceCause) :
    (s.endSwitch source lock cause).watch = s.watch := by
  rw [State.endSwitch, State.watch_notify]
  rfl

@[simp] theorem State.watch_lockAcquired : s.lockAcquired.watch = s.watch := by
  unfold State.lockAcquired
  split <;> simp

@[simp] theorem State.watch_lockTimeoutExpired : s.lockTimeoutExpired.watch = s.watch := by
  unfold State.lockTimeoutExpired
  split <;> simp

@[simp] theorem State.watch_transferDone : s.transferDone.watch = s.watch := by
  unfold State.transferDone
  split <;> simp

@[simp] theorem State.watch_referenceLost : s.referenceLost.watch = s.watch := by
  unfold State.referenceLost
  split <;> rfl

@[simp] theorem State.watch_leaveReset : s.leaveReset.watch = s.watch := by
  unfold State.leaveReset
  split <;> rfl

/-! ### The link -/

@[simp] theorem State.watch_arrive (f : Frame) : (s.arrive f).watch = s.watch := by
  unfold State.arrive
  split
  · rfl
  · exact State.watch_eq_iff.mpr ⟨rfl, s.link.arrive_standby f⟩

@[simp] theorem State.watch_failFrame (st : Status) (tag : Byte) :
    (s.failFrame st tag).watch = s.watch := by
  unfold State.failFrame
  split
  · rfl
  · exact State.watch_eq_iff.mpr ⟨rfl, s.link.addLinkReply_standby _⟩

@[simp] theorem State.watch_receiveByte (b : Byte) : (s.receiveByte b).watch = s.watch := by
  have hheader : ∀ taken, (s.takeHeader taken).watch = s.watch := fun taken => by
    unfold State.takeHeader
    simp only
    repeat' split
    all_goals simp
  have hcheck : ∀ f w, (s.checkFrame f w).watch = s.watch := fun f w => by
    unfold State.checkFrame
    simp only
    split <;> simp
  unfold State.receiveByte
  repeat' split
  all_goals simp [hheader, hcheck]

@[simp] theorem State.watch_discardPartial (r : Receive) : (s.discardPartial r).watch = s.watch := by
  unfold State.discardPartial
  rw [State.watch_setReceive]
  split <;> simp

@[simp] theorem State.watch_framingError : s.framingError.watch = s.watch := by
  unfold State.framingError
  split <;> simp

@[simp] theorem State.watch_linkGap : s.linkGap.watch = s.watch := by
  unfold State.linkGap
  split <;> simp

end

/-! ### The channel engines -/

section
variable (s : State) (c : Chan)

@[simp] theorem State.watch_idleChannel : (s.idleChannel c).watch = s.watch := by
  rw [State.idleChannel_eq]
  rfl

@[simp] theorem State.watch_endRun (cause : RunEndCause) : (s.endRun c cause).watch = s.watch := by
  simp [State.endRun]

@[simp] theorem State.watch_faultChannel (cause : FaultCause) (k : Option Nat) :
    (s.faultChannel c cause k).watch = s.watch := by
  simp [State.faultChannel, State.haltTimer, State.restOutput]

theorem State.watch_loopTest (c : Chan) (i : Nat) : ∀ (turns : Nat) (s : State),
    (s.loopTest c i turns).2.watch = s.watch := by
  intro turns
  induction turns with
  | zero => intro s; rfl
  | succ n ih =>
    intro s
    unfold State.loopTest
    simp only
    repeat' split
    all_goals simp [ih, State.setLoops]

@[simp] theorem State.watch_advance : (s.advance c).1.watch = s.watch := by
  unfold State.advance
  simp only
  split <;> simp [State.goTo, State.watch_loopTest]

/-- R78, R87: a step of any kind. -/
@[simp] theorem State.watch_executeStep : (s.executeStep c).1.watch = s.watch := by
  unfold State.executeStep
  split
  case h_1 => simp
  case h_2 =>
    unfold State.playStep
    split <;> simp [State.takeReference, State.markOutput]
  case h_3 =>
    unfold State.loopStep
    simp only
    repeat' split
    all_goals simp [State.goTo, State.setLoops]
  case h_4 =>
    unfold State.branchStep
    simp only
    repeat' split
    all_goals simp [State.goTo, State.setLoops]
  case h_5 =>
    unfold State.callStep
    simp only
    repeat' split
    all_goals simp
  case h_6 =>
    unfold State.returnStep
    simp only
    repeat' split
    all_goals simp
  case h_7 =>
    unfold State.waitStep
    simp only
    split <;> simp
  case h_8 => simp [State.loadTimer]
  case h_9 =>
    unfold State.signalStep
    simp only
    rw [State.watch_advance]
    repeat' split
    all_goals simp

@[simp] theorem State.watch_takeSteps : ∀ (n : Nat) (s : State), (s.takeSteps c n).watch = s.watch := by
  intro n
  induction n with
  | zero => intro s; rfl
  | succ n ih =>
    intro s
    unfold State.takeSteps
    simp only
    split <;> simp [ih, State.countStep]

@[simp] theorem State.watch_stepEvent : (s.stepEvent c).watch = s.watch := by
  simp [State.stepEvent, State.beginEvent]

@[simp] theorem State.watch_advanceEvent : (s.advanceEvent c).watch = s.watch := by
  unfold State.advanceEvent
  simp only
  split <;> simp [State.beginEvent]

/-! ### Starts, releases, pauses and stops -/

@[simp] theorem State.watch_startTest : (s.startTest c).watch = s.watch := by
  have hstarts : ∀ u : State, (u.startChannel c).watch = u.watch := fun u => by
    unfold State.startChannel
    simp only
    split <;> simp [State.beginEvent]
  unfold State.startTest
  simp only
  repeat' split
  all_goals simp [hstarts]

@[simp] theorem State.watch_releaseTest : (s.releaseTest c).watch = s.watch := by
  unfold State.releaseTest
  simp only
  repeat' split
  all_goals simp

@[simp] theorem State.watch_goOn : (s.goOn c).watch = s.watch := by
  unfold State.goOn
  split <;> simp

@[simp] theorem State.watch_pauseChanged : (s.pauseChanged c).watch = s.watch := by
  unfold State.pauseChanged
  simp only
  split <;> simp

@[simp] theorem State.watch_followPauseLine : (s.followPauseLine c).watch = s.watch := by
  simp [State.followPauseLine]

@[simp] theorem State.watch_pauseChannel : (s.pauseChannel c).watch = s.watch := by
  unfold State.pauseChannel
  split <;> simp

@[simp] theorem State.watch_resumeChannel : (s.resumeChannel c).watch = s.watch := by
  simp [State.resumeChannel]

@[simp] theorem State.watch_stopNow : (s.stopNow c).watch = s.watch := by
  unfold State.stopNow
  split <;> simp

@[simp] theorem State.watch_stopAfterPlay : (s.stopAfterPlay c).watch = s.watch := by
  unfold State.stopAfterPlay
  split <;> simp

@[simp] theorem State.watch_runChannels (mask : Byte) (start : Nat) (q : Condition) :
    (s.runChannels mask start q).watch = s.watch := by
  unfold State.runChannels
  simp only
  rw [State.watch_foldl _ (fun u c => u.watch_startTest c),
    State.watch_foldl (fun u c => u.armChannel start q c) (fun u c => rfl), State.watch_withdraw]

/-! ### Passes and sample periods -/

@[simp] theorem State.watch_passComplete (p : PlayRecord) (counted : Bool) :
    (s.passComplete c p counted).watch = s.watch := by
  have hcompletes : ∀ u : State, (u.completePlay c p).watch = u.watch := fun u => by
    unfold State.completePlay
    simp only
    split <;> simp [State.beginEvent, State.markOutput]
  have hholds : ∀ u : State, (u.holdTest c p).watch = u.watch := fun u => by
    unfold State.holdTest
    simp only
    repeat' split
    all_goals simp [hcompletes, State.setActivity]
  unfold State.passComplete
  simp only
  split <;> simp [hholds, State.setActivity]

@[simp] theorem State.watch_waitPeriod (w : WaitRecord) : (s.waitPeriod c w).watch = s.watch := by
  unfold State.waitPeriod
  split <;> rfl

@[simp] theorem State.watch_samplePeriod : (s.samplePeriod c).watch = s.watch := by
  have hcarries : ∀ u : State, (u.carryRest c).watch = u.watch := fun u => rfl
  have hfrozen : ∀ u : State, (u.frozenPeriod c).watch = u.watch := fun u => by
    unfold State.frozenPeriod
    repeat' split
    all_goals simp [hcarries, State.carryCode]
  have hplays : ∀ (u : State) p b, (u.playPeriod c p b).watch = u.watch := fun u p b => by
    unfold State.playPeriod
    simp only
    split <;> simp [State.setActivity, State.deliverSample]
  unfold State.samplePeriod
  simp only
  repeat' split
  all_goals simp [hcarries, hfrozen, hplays]

@[simp] theorem State.watch_periodEvent : (s.periodEvent c).watch = s.watch := by
  simp [State.periodEvent]

@[simp] theorem State.watch_passPeriods : ∀ (n : Nat) (s : State), (s.passPeriods c n).watch = s.watch := by
  intro n
  induction n with
  | zero => intro s; rfl
  | succ n ih =>
    intro s
    unfold State.passPeriods
    simp only
    repeat' split
    all_goals simp [ih]

/-! ### The hold and operand changes -/

@[simp] theorem State.watch_raiseEvent (target : HoldTarget) : (s.raiseEvent target).watch = s.watch := by
  unfold State.raiseEvent State.raiseHold
  simp only
  repeat' split
  all_goals simp

@[simp] theorem State.watch_dropEvent (target : HoldTarget) : (s.dropEvent target).watch = s.watch := by
  unfold State.dropEvent State.dropHold
  simp only
  repeat' split
  all_goals simp

@[simp] theorem State.watch_changeEvent : (s.changeEvent c).watch = s.watch := by
  unfold State.changeEvent
  simp only
  repeat' split
  all_goals simp

@[simp] theorem State.watch_catchUp (e : Instr) : (s.catchUp c e).watch = s.watch := by
  refine State.watch_foldl _ (fun u e => ?_) _ s
  unfold State.signalEvent
  split <;> simp

@[simp] theorem State.watch_catchUpAt (target : HoldTarget) (e : Instr) :
    (s.catchUpAt target e).watch = s.watch := by
  unfold State.catchUpAt
  split <;> simp

end

end Sys2Proof.Machine
end

section
/-!
The walk under the requests: all but SET WALK and WAKE leave it as it was.
-/
namespace Sys2Proof.Machine

/-! ### Requests on images and imports -/

section
variable (s : State)

theorem State.watch_takeDefineImage (h : Half) (n : Quad) (b : Byte) :
    (takeDefineImage h n b s).1.watch = s.watch := by
  simp only [takeDefineImage, answer, refuse]
  repeat' split
  case h_2 hc => exact State.watch_createImage hc
  all_goals rfl

theorem State.watch_takeStartImport (h : Half) (a n : Quad) (b : Byte) :
    (takeStartImport h a n b s).1.watch = s.watch := by
  simp only [takeStartImport, answer, refuse]
  repeat' split
  case h_2 hc => exact (State.watch_beginRead _ _).trans (State.watch_createImage hc)
  all_goals rfl

theorem State.watch_takeFinishImage (h : Half) : (takeFinishImage h s).1.watch = s.watch := by
  simp only [takeFinishImage, answer, refuse]
  repeat' split
  case h_2 hc => exact (State.watch_commitAttempt hc :)
  all_goals rfl

theorem State.watch_takeCommit (h : Half) : (takeCommit h s).1.watch = s.watch := by
  simp only [takeCommit, answer, refuse]
  repeat' split
  case h_2 hc => exact State.watch_commitAttempt hc
  case h_2 hc => exact State.watch_commitAttempt hc
  all_goals rfl

theorem State.watch_takeReleaseHandle (h : Half) : (takeReleaseHandle h s).1.watch = s.watch := by
  have hreleases : ∀ h, (s.releaseIncoming h).2.watch = s.watch := fun h => by
    unfold State.releaseIncoming
    split <;> simp
  simp only [takeReleaseHandle, answer, refuse]
  repeat' split
  all_goals simp [hreleases]

theorem State.watch_takeCloseLibrary : (takeCloseLibrary s).1.watch = s.watch := by
  simp only [takeCloseLibrary, answer]
  split
  · rfl
  · exact State.watch_cancelImport _ _

/-! ### Requests on the engines and the clock -/

theorem State.watch_takeStop (m o : Byte) : (takeStop m o s).1.watch = s.watch := by
  unfold takeStop
  split
  · rfl
  · split
    · rfl
    · refine State.watch_foldl _ (fun u c => ?_) _ s
      split <;> simp

theorem State.watch_takePause (m : Byte) : (takePause m s).1.watch = s.watch := by
  unfold takePause
  split
  · rfl
  · exact State.watch_foldl _ (fun u c => u.watch_pauseChannel c) _ s

theorem State.watch_takeResume (m : Byte) : (takeResume m s).1.watch = s.watch := by
  unfold takeResume
  split
  · rfl
  · exact State.watch_foldl _ (fun u c => u.watch_resumeChannel c) _ s

theorem State.watch_takeSetReference (x : Byte) : (takeSetReference x s).1.watch = s.watch := by
  simp only [takeSetReference, answer]
  repeat' split
  all_goals rfl

end

/-- What a block does with a request other than SET WALK and WAKE. -/
theorem State.watch_take {i : Instr} {take : State → Answer} (h : takeOf i = some take)
    (hwalk : ∀ tag e n b f l, i ≠ .setWalk tag e n b f l) (hwake : ∀ tag, i ≠ .wake tag) (s : State) :
    (take s).1.watch = s.watch := by
  cases i <;> simp only [takeOf, Option.some.injEq, reduceCtorEq] at h <;> subst h
  case setWalk => exact absurd rfl (hwalk _ _ _ _ _ _)
  case wake => exact absurd rfl (hwake _)
  case defineImage => exact s.watch_takeDefineImage _ _ _
  case startImport => exact s.watch_takeStartImport _ _ _ _
  case finishImage => exact s.watch_takeFinishImage _
  case commit => exact s.watch_takeCommit _
  case releaseHandle => exact s.watch_takeReleaseHandle _
  case closeLibrary => exact s.watch_takeCloseLibrary
  case stop => exact s.watch_takeStop _ _
  case pause => exact s.watch_takePause _
  case resume => exact s.watch_takeResume _
  case setReference => exact s.watch_takeSetReference _
  case identify | readDevice | resetEngine | readGuards | readImport | readWalk | readConditions | readClock => rfl
  case writePage | dropIncoming | cancelImport | run | clearFault | setPolicy | setFlags | fireTrigger =>
    simp only [takeWritePage, takeDropIncoming, takeCancelImport, takeRun, takeClearFault, takeSetPolicy,
      takeSetFlags, takeFireTrigger, answer, refuse]
    repeat' split
    all_goals simp
  all_goals
    simp only [takeEnterStandby, takeSetNotices, takeReadHandle, takeReadMap, takeSetGuard, takeClearGuard,
      takeLockGuards, takeSetPartition, takeWriteSteps, takeReadSteps, takeReadChannel, takeSetRoute,
      takeSetRate, takeSetOutput, takeReadOutput, answer, refuse]
    repeat' split
    all_goals rfl

end Sys2Proof.Machine
end

section
/-!
The invariant of the scanner (R186, R197): the visits of a block, and what begins and ends them, keep it; SET WALK,
standby, WAKE and the resets too; and all else leaves the walk as it was.
-/
namespace Sys2Proof.Machine

/-! ### The walk between two visits (R189, R190) -/

/-- R186: the configuration, the cursor and the sweeps in their bounds. -/
structure Scanner.Bounded (x : Scanner) : Prop where
  interval : 1 ≤ x.interval ∧ x.interval ≤ 255
  blockSize : 1 ≤ x.blockSize ∧ x.blockSize ≤ 128
  range : x.rangeEnd ≤ 32767
  cursor : x.rangeStart ≤ x.cursor ∧ x.cursor ≤ x.rangeEnd
  sweeps : x.sweeps ≤ 65535

/-- R189: a scanner in a block between two visits, with no more than `left` pages to visit: the walk goes on, no
interval runs and no page is in read. -/
structure Scanner.Visiting (x : Scanner) (left : Nat) : Prop extends x.Bounded where
  suspended : x.suspended = false
  walk : x.walk ≠ .off
  waits : x.intervalRemaining = none
  reads : x.pageInRead = none
  left : left ≤ x.blockSize

section
variable {x : Scanner} {left : Nat}

theorem Scanner.Bounded.inRange (hx : x.Bounded) : x.inRange := ⟨hx.cursor.1, hx.cursor.2, hx.sweeps⟩

theorem Scanner.Bounded.after (hx : x.Bounded) (j : Nat) : (x.after j).Bounded := by
  obtain ⟨hlow, hhigh, hsweeps⟩ := Scanner.after_inRange hx.inRange j
  exact ⟨hx.interval, hx.blockSize, hx.range, ⟨hlow, hhigh⟩, hsweeps⟩

/-- R189: a visit leaves one page fewer to visit. -/
theorem Scanner.Visiting.moveOn (hx : x.Visiting (left + 1)) : x.moveOn.Visiting left := by
  rw [Scanner.moveOn_eq hx.inRange]
  exact { hx.after 1 with
    suspended := hx.suspended, walk := hx.walk, waits := hx.waits, reads := hx.reads
    left := Nat.le_of_succ_le hx.left }

theorem Scanner.endBlock_on (hwalk : x.walk = .on) :
    x.endBlock = { x with blockRemaining := none, intervalRemaining := some x.interval } := by
  simp only [Scanner.endBlock, hwalk]

theorem Scanner.endBlock_stopping (hwalk : x.walk = .stopping) :
    x.endBlock = { x with blockRemaining := none, walk := .off } := by
  simp only [Scanner.endBlock, hwalk]

end

section
variable {s t : State}

theorem State.ScannerWf.bounded (hs : s.ScannerWf) : s.scanner.Bounded :=
  ⟨hs.interval, hs.blockSize, hs.range, hs.cursor, hs.sweeps⟩

theorem State.ScannerWf.of_watch (hs : s.ScannerWf) (h : t.watch = s.watch) : t.ScannerWf := by
  obtain ⟨hscanner, hstandby⟩ := State.watch_eq_iff.mp h
  have hsuspended : s.scanner.suspended = t.link.standby := hs.suspended.trans hstandby.symm
  constructor <;> rw [hscanner]
  case suspended => exact hsuspended
  exacts [hs.interval, hs.blockSize, hs.range, hs.cursor, hs.sweeps, hs.off, hs.stopping, hs.waits,
    hs.intervalLeft, hs.blockLeft, hs.reads, hs.inRead]

/-- R186: between blocks the walk is OFF, or ON with what remains of its interval. -/
theorem State.scannerWf_between (hx : s.scanner.Bounded) (hsuspended : s.scanner.suspended = s.link.standby)
    (hblock : s.scanner.blockRemaining = none) (hreads : s.scanner.pageInRead = none)
    (hwalk : (s.scanner.walk = .off ∧ s.scanner.intervalRemaining = none) ∨
      (s.scanner.walk = .on ∧ ∃ n, s.scanner.intervalRemaining = some n ∧ n ≤ s.scanner.interval)) :
    s.ScannerWf := by
  have hnoBlock : ∀ n, s.scanner.blockRemaining = some n → 1 ≤ n ∧ n ≤ s.scanner.blockSize := fun n h => by
    cases hblock.symm.trans h
  have hnoRead : ∀ r, s.scanner.pageInRead = some r → r.page = s.scanner.cursor := fun r h => by
    cases hreads.symm.trans h
  rcases hwalk with ⟨hoff, hwaits⟩ | ⟨hon, n, hn, hle⟩
  · exact { hx with
      suspended := hsuspended, off := fun _ => hblock, blockLeft := hnoBlock, inRead := hnoRead
      stopping := fun h => by cases hoff.symm.trans h
      waits := by simp [hwaits, hoff]
      intervalLeft := fun n h => by cases hwaits.symm.trans h
      reads := by simp [hreads, hblock] }
  · exact { hx with
      suspended := hsuspended, off := fun _ => hblock, blockLeft := hnoBlock, inRead := hnoRead
      stopping := fun h => by cases hon.symm.trans h
      waits := by simp [hn, hon, hblock]
      intervalLeft := fun m h => Option.some.inj (hn.symm.trans h) ▸ hle
      reads := by simp [hreads, hblock] }

/-! ### Visits -/

/-- R190: a read begins. -/
theorem State.scannerWf_beginRead {left : Nat} (hx : s.scanner.Visiting (left + 1)) (hlink : s.link.standby = false)
    (owner : Nat) :
    (s.setScanner ({ s.scanner with blockRemaining := some (left + 1) }.beginRead owner)).ScannerWf :=
  { hx.toBounded with
    suspended := hx.suspended.trans hlink.symm
    off := fun h => absurd h hx.walk
    stopping := fun _ => rfl
    waits := by simp [Scanner.beginRead, hx.waits]
    intervalLeft := fun n h => by cases hx.waits.symm.trans h
    blockLeft := fun n h => Option.some.inj h ▸ ⟨Nat.succ_pos left, hx.left⟩
    reads := by simp [Scanner.beginRead, hx.suspended]
    inRead := fun r h => Option.some.inj h ▸ rfl }

/-- R189: a block ends: the next interval begins in ON, and STOPPING becomes OFF. -/
theorem State.scannerWf_endBlock {left : Nat} (hx : s.scanner.Visiting left) (hlink : s.link.standby = false) :
    (s.setScanner s.scanner.endBlock).ScannerWf := by
  have hsuspended := hx.suspended.trans hlink.symm
  cases hwalk : s.scanner.walk with
  | off => exact absurd hwalk hx.walk
  | on =>
    rw [Scanner.endBlock_on hwalk]
    exact State.scannerWf_between { hx.toBounded with } hsuspended rfl hx.reads
      (.inr ⟨hwalk, _, rfl, Nat.le_refl _⟩)
  | stopping =>
    rw [Scanner.endBlock_stopping hwalk]
    exact State.scannerWf_between { hx.toBounded with } hsuspended rfl hx.reads (.inl ⟨rfl, hx.waits⟩)

/-- R189, R190: the visits of a block end in a read or with the block. -/
theorem State.scannerWf_visitPages : ∀ (left : Nat) (s : State), s.scanner.Visiting left →
    s.link.standby = false → (s.visitPages left).ScannerWf := by
  intro left
  induction left with
  | zero => intro s hx hlink; exact State.scannerWf_endBlock hx hlink
  | succ left ih =>
    intro s hx hlink
    unfold State.visitPages
    split
    · exact State.scannerWf_beginRead hx hlink _
    · exact ih (s.setScanner s.scanner.moveOn) hx.moveOn hlink

/-! ### What begins visits -/

/-- A page in read is that of a block in progress outside standby. -/
theorem State.ScannerWf.reading {r : PageRead} (hs : s.ScannerWf) (hr : s.scanner.pageInRead = some r) :
    s.scanner.suspended = false ∧ ∃ left, s.scanner.blockRemaining = some left := by
  have h := hs.reads
  rw [hr, Option.isSome_some, eq_comm, Bool.and_eq_true, Option.isSome_iff_exists] at h
  obtain ⟨hblock, hsuspended⟩ := h
  exact ⟨by simpa using hsuspended, hblock⟩

/-- A block in progress is that of a walk that goes on, with no interval. -/
theorem State.ScannerWf.inBlock {left : Nat} (hs : s.ScannerWf) (hl : s.scanner.blockRemaining = some left) :
    s.scanner.walk ≠ .off ∧ s.scanner.intervalRemaining = none := by
  refine ⟨fun hoff => ?_, ?_⟩
  · rw [hs.off hoff] at hl
    cases hl
  · have h := hs.waits
    rw [hl, Option.isNone_some, Bool.and_false] at h
    exact Option.isNone_iff_eq_none.mp (Option.isSome_eq_false_iff.mp h)

/-- R189, R191: the block goes on after the page in read. -/
theorem State.ScannerWf.endVisit {r : PageRead} (hs : s.ScannerWf) (hr : s.scanner.pageInRead = some r) :
    s.endVisit.ScannerWf := by
  obtain ⟨hsuspended, left, hl⟩ := hs.reading hr
  obtain ⟨hwalk, hwaits⟩ := hs.inBlock hl
  obtain ⟨hpos, hle⟩ := hs.blockLeft left hl
  obtain ⟨n, rfl⟩ := Nat.exists_eq_add_of_le' hpos
  have hx : ({ s.scanner with blockRemaining := some (n + 1), pageInRead := none } : Scanner).Visiting (n + 1) :=
    { hs.bounded with suspended := hsuspended, walk := hwalk, waits := hwaits, reads := rfl, left := hle }
  simp only [State.endVisit, hl]
  exact State.scannerWf_visitPages n _ hx.moveOn (hs.suspended.symm.trans hsuspended)

/-- R188: a T3 event lowers the interval of a counting walk, and its expiry begins a block. -/
theorem State.ScannerWf.walkTick (hs : s.ScannerWf) : s.walkTick.ScannerWf := by
  unfold State.walkTick
  split
  case isFalse => exact hs
  rename_i hcounts
  obtain ⟨⟨hwalk, hsuspended⟩, hblock⟩ :
      (s.scanner.walk = .on ∧ s.scanner.suspended = false) ∧ s.scanner.blockRemaining = none := by
    simpa [Scanner.counting] using hcounts
  have hreads : s.scanner.pageInRead = none := by simpa [hblock] using hs.reads
  split
  case h_1 => exact hs
  rename_i n hn
  split
  · refine State.scannerWf_visitPages s.scanner.blockSize _ ?_ (hs.suspended.symm.trans hsuspended)
    exact { hs.bounded with
      suspended := hsuspended, walk := by simp [hwalk], waits := rfl, reads := hreads, left := Nat.le_refl _ }
  · exact State.scannerWf_between { hs.bounded with } hs.suspended hblock hreads
      (.inr ⟨hwalk, _, rfl, (Nat.sub_le n 1).trans (hs.intervalLeft n hn)⟩)

theorem State.ScannerWf.tapEvent (hs : s.ScannerWf) (k : Fin 7) : (s.tapEvent k).ScannerWf := by
  have htap : ∀ u : State, u.ScannerWf → (u.tap k).ScannerWf := fun u hu => by
    have htimers := hu.of_watch (State.watch_eachChannel _ (fun c v => v.watch_tapTimer c (tapOf k)) u)
    unfold State.tap
    simp only
    split
    · exact htimers.walkTick
    · exact htimers
  unfold State.tapEvent
  split
  · split
    · exact htap _ (hs.of_watch (s.watch_taken _))
    · exact htap _ (hs.of_watch (s.watch_divide k))
  · exact hs

/-! ### Standby (R197, R212, R213) -/

/-- R197: a suspended scanner has no page in read. -/
theorem State.ScannerWf.beginStandby (hs : s.ScannerWf) : s.beginStandby.ScannerWf :=
  { hs with
    suspended := rfl
    reads := by simp [State.beginStandby, Scanner.suspend]
    inRead := nofun }

/-- R213: WAKE ends standby, and a block in progress goes on. -/
theorem State.ScannerWf.takeWake (hs : s.ScannerWf) : (takeWake s).1.ScannerWf := by
  unfold Machine.takeWake
  split
  case isFalse => exact hs
  rename_i hstandby
  have hreads : s.scanner.pageInRead = none := by simpa [hs.suspended, hstandby] using hs.reads
  simp only [answer, State.resumeWalk]
  split
  · rename_i left hl
    obtain ⟨hwalk, hwaits⟩ := hs.inBlock hl
    refine State.scannerWf_visitPages left _ ?_ rfl
    exact { hs.bounded with
      suspended := rfl, walk := hwalk, waits := hwaits, reads := hreads, left := (hs.blockLeft left hl).2 }
  · rename_i hblock
    exact { hs with suspended := rfl, reads := by simp [State.setScanner, hblock, hreads] }

/-! ### SET WALK (R187) and the resets (R196) -/

theorem State.ScannerWf.turnOff (hs : s.ScannerWf) : (s.setScanner s.scanner.turnOff).ScannerWf := by
  unfold Scanner.turnOff
  split
  · rename_i hblock
    have hreads : s.scanner.pageInRead = none := by simpa [hblock] using hs.reads
    exact State.scannerWf_between { hs.bounded with } hs.suspended hblock hreads (.inl ⟨rfl, rfl⟩)
  · rename_i left hwalk hblock
    obtain ⟨-, hwaits⟩ := hs.inBlock hblock
    exact { hs with
      off := nofun
      stopping := fun _ => by simp [hblock]
      waits := by simp [hwaits] }
  · exact hs
  · exact hs

/-- R187: SET WALK turns on a walk that is OFF, with a configuration in its bounds. -/
theorem State.ScannerWf.takeSetWalk (hs : s.ScannerWf) (e n b : Byte) (first last : Half) :
    (takeSetWalk e n b first last s).1.ScannerWf := by
  simp only [Machine.takeSetWalk, answer]
  split
  · exact hs
  · exact hs.turnOff
  split
  · exact hs
  rename_i hbounds
  split
  · exact hs
  rename_i hoff
  have hoff : s.scanner.walk = .off := not_not.mp hoff
  have hreads : s.scanner.pageInRead = none := by simpa [hs.off hoff] using hs.reads
  refine State.scannerWf_between ⟨?_, ?_, ?_, ?_, Nat.zero_le _⟩ hs.suspended rfl hreads
    (.inr ⟨rfl, _, rfl, Nat.le_refl _⟩)
  all_goals simp only [State.setScanner]
  all_goals omega

/-- R214: the engine reset turns the walk OFF. -/
theorem State.ScannerWf.stop (hs : s.ScannerWf) : (s.setScanner s.scanner.stop).ScannerWf :=
  State.scannerWf_between { hs.bounded with } hs.suspended rfl rfl (.inl ⟨rfl, rfl⟩)

/-- R196: the scanner as a reset leaves it. -/
theorem State.scannerWf_of_reset {n : Nat} (h : t.watch = ({ Scanner.reset with begun := n }, false)) :
    t.ScannerWf := by
  obtain ⟨hscanner, hstandby⟩ := Prod.mk.inj h
  refine State.scannerWf_between ?_ ?_ ?_ ?_ ?_ <;> rw [hscanner]
  · constructor <;> simp [Scanner.reset]
  · exact hstandby.symm
  · rfl
  · rfl
  · exact .inl ⟨rfl, rfl⟩

/-! ### Commands -/

theorem State.ScannerWf.engineReset (hs : s.ScannerWf) : s.engineReset.ScannerWf := by
  have hchannel : ∀ (c : Chan) (u : State), (u.resetChannel c).watch = u.watch := fun c u => by
    simp [State.resetChannel]
  have hblocks : ((s.eachChannel fun c s => s.resetChannel c).cancelImport .request).watch = s.watch := by
    rw [State.watch_cancelImport, State.watch_eachChannel _ hchannel]
  unfold State.engineReset
  generalize (s.eachChannel fun c s => s.resetChannel c).cancelImport .request = u at hblocks
  exact (hs.of_watch hblocks).stop.of_watch rfl

theorem State.ScannerWf.completeSending (hs : s.ScannerWf) : s.completeSending.ScannerWf := by
  unfold State.completeSending State.afterReply
  split
  case h_3 =>
    split
    · exact hs.of_watch rfl
    · exact State.ScannerWf.beginStandby (hs.of_watch rfl)
    · exact State.ScannerWf.engineReset (hs.of_watch rfl)
  all_goals exact hs.of_watch rfl

/-- What a block does with any request. -/
theorem State.ScannerWf.take {i : Instr} {take : State → Answer} (hs : s.ScannerWf) (h : takeOf i = some take) :
    (take s).1.ScannerWf := by
  by_cases hwalk : ∃ tag e n b first last, i = .setWalk tag e n b first last
  · obtain ⟨tag, e, n, b, first, last, rfl⟩ := hwalk
    obtain rfl := Option.some.inj h
    exact hs.takeSetWalk e n b first last
  by_cases hwake : ∃ tag, i = .wake tag
  · obtain ⟨tag, rfl⟩ := hwake
    obtain rfl := Option.some.inj h
    exact hs.takeWake
  exact hs.of_watch (State.watch_take h (fun tag e n b first last hi => hwalk ⟨tag, e, n, b, first, last, hi⟩)
    (fun tag hi => hwake ⟨tag, hi⟩) s)

theorem State.ScannerWf.handOnNext (hs : s.ScannerWf) : s.handOnNext.ScannerWf := by
  unfold State.handOnNext
  split
  · rename_i f rest _ _
    have hs' : ({ s with link := { s.link with requests := rest } } : State).ScannerWf := hs.of_watch rfl
    unfold State.handOn
    split
    · exact hs'.of_watch rfl
    · exact hs'.of_watch rfl
    · split
      · rename_i ht
        exact (hs'.take ht).of_watch rfl
      · exact hs'
  · exact hs

theorem State.ScannerWf.event {f : State → State} (hs : s.ScannerWf) (hf : (f s).ScannerWf)
    (h : event f s = .next t) : t.ScannerWf := by
  obtain rfl := Host.Outcome.next.inj h
  split
  · exact hs
  · exact hf.of_watch (State.watch_transmit _)

/-- An event that leaves the walk as it was. -/
theorem State.ScannerWf.quietEvent {f : State → State} (hs : s.ScannerWf) (hf : (f s).watch = s.watch)
    (h : Machine.event f s = .next t) : t.ScannerWf :=
  hs.event (hs.of_watch hf) h

theorem State.ScannerWf.request {i : Instr} {take : State → Answer} (hs : s.ScannerWf) (ht : takeOf i = some take)
    (h : exec i s = .next t) : t.ScannerWf := by
  rw [exec_request ht s] at h
  rcases submit_cases i take s with h' | ⟨f, -, h' | h' | h'⟩ <;>
    obtain rfl := Host.Outcome.next.inj (h'.symm.trans h)
  · exact hs
  · exact (hs.take ht).of_watch (State.watch_transmit _)
  · exact hs.of_watch (State.watch_transmit _)
  · exact hs.of_watch ((State.watch_transmit _).trans (s.watch_arrive f))

/-- Every command keeps the invariant of the scanner. -/
theorem State.ScannerWf.exec (hs : s.ScannerWf) (i : Instr) (h : exec i s = .next t) : t.ScannerWf := by
  cases i
  case receiveCharacter =>
    change execReceiveCharacter _ _ s = .next t at h
    refine hs.quietEvent ?_ h
    split <;> simp
  case linkGapTimeout => exact hs.quietEvent s.watch_linkGap h
  case requestHandOn => exact hs.event hs.handOnNext h
  case frameSent => exact hs.event hs.completeSending h
  case standbyBegin =>
    refine hs.event ?_ h
    split
    · exact hs.completeSending
    · exact hs
  case engineResetPerformed =>
    refine hs.event ?_ h
    split
    · exact hs.completeSending
    · exact hs
  case powerOnReset =>
    obtain rfl := Host.Outcome.next.inj h
    refine State.scannerWf_of_reset (n := s.scanner.begun) ?_
    split
    · rfl
    · rw [State.watch_leaveReset]; rfl
  case resetLine =>
    obtain rfl := Host.Outcome.next.inj h
    exact State.scannerWf_of_reset (n := s.scanner.begun) rfl
  case guardEnableChange =>
    obtain rfl := Host.Outcome.next.inj h
    exact hs.of_watch (State.watch_transmit _)
  case pauseLineChange =>
    obtain rfl := Host.Outcome.next.inj h
    refine hs.of_watch ?_
    rw [State.watch_transmit, State.watch_eachChannel _ fun c u => u.watch_followPauseLine c]
    rfl
  case triggerLineChange =>
    obtain rfl := Host.Outcome.next.inj h
    exact hs.of_watch ((State.watch_transmit _).trans (s.watch_changeTriggerLine _ _))
  case lockAcquired => exact hs.quietEvent s.watch_lockAcquired h
  case lockTimeoutExpiry =>
    change execLockTimeoutExpiry s = .next t at h
    refine hs.quietEvent ?_ h
    simp
  case referenceLost => exact hs.quietEvent s.watch_referenceLost h
  case transferDone => exact hs.quietEvent s.watch_transferDone h
  case holdRaise =>
    refine hs.quietEvent ?_ h
    split <;> simp
  case holdDrop =>
    refine hs.quietEvent ?_ h
    split <;> simp
  case samplePeriod =>
    change execSamplePeriod _ s = .next t at h
    refine hs.quietEvent ?_ h
    split
    · rfl
    · simp only
      split <;> simp
  case timeBaseTap k => exact hs.event (hs.tapEvent k) h
  case timerExpiry =>
    change execTimerExpiry _ s = .next t at h
    refine hs.event ?_ h
    split
    · exact hs.tapEvent _
    · exact hs
  case operandChange =>
    change execOperandChange _ s = .next t at h
    refine hs.quietEvent ?_ h
    simp
  case importPageComplete =>
    change execImportPageComplete _ _ s = .next t at h
    refine hs.quietEvent ?_ h
    split
    · split <;> simp
    · rfl
  case walkIntervalExpiry =>
    refine hs.event ?_ h
    split
    · exact hs.tapEvent _
    · exact hs
  case scanReadComplete =>
    change execScanReadComplete _ s = .next t at h
    refine hs.event ?_ h
    split
    · rename_i r hr
      split
      · have hcompared := s.watch_compareRead r
        exact (hs.of_watch hcompared).endVisit ((congrArg Scanner.pageInRead (Prod.mk.inj hcompared).1).trans hr)
      · exact hs
    · exact hs
  case resetLineRelease =>
    obtain rfl := Host.Outcome.next.inj h
    split
    · exact hs.of_watch (State.watch_leaveReset _)
    · exact hs
  case pageDecay =>
    obtain rfl := Host.Outcome.next.inj h
    refine hs.of_watch ?_
    rw [State.watch_transmit]
    split <;> simp
  all_goals exact hs.request rfl h

/-- A step of the machine keeps it. -/
theorem State.ScannerWf.step (hs : s.ScannerWf) (h : step s = .next t) : t.ScannerWf := by
  unfold Machine.step at h
  split at h
  · rename_i c rest _
    exact State.ScannerWf.exec (s := { s with pending := rest }) (hs.of_watch rfl) c h
  · unfold idle at h
    split at h
    · exact hs.exec _ h
    · obtain rfl := Host.Outcome.next.inj h
      exact hs.of_watch s.watch_tick

end

end Sys2Proof.Machine

namespace Sys2Proof.Proofs
open Machine

/-- Settles O60: the visits of a block end in a read or with the block, what begins them, standby and the resets
keep the invariant, and nothing else writes the scanner or the standby. -/
theorem theWalkStaysWellFormed : Obligations.TheWalkStaysWellFormed := by
  intro s t hs h
  exact hs.step h

end Sys2Proof.Proofs
end

section
/-!
SET WALK (R187): what its reply carries of the walk, and its answers.
-/
namespace Sys2Proof.Machine

variable {s u : State} {tag e n b : Byte} {first last : Half} {p : List Byte}

theorem exec_setWalk (ho : s.open = true) (ht : takeSetWalk e n b first last s = (u, p)) :
    exec (.setWalk tag e n b first last) s = .next (u.withReply 0x28 tag p) := by
  rw [exec_open (take := takeSetWalk e n b first last) rfl rfl rfl ho, ht]

/-- R206, R187: the walk on the link. -/
theorem Scanner.walkBytes_eq (x : Scanner) : x.walkBytes =
    [match x.walk with | .off => 0 | .on => 1 | .stopping => 2,
      BitVec.ofNat 8 x.interval, BitVec.ofNat 8 x.blockSize] ++ byte2 x.rangeStart ++
      byte2 x.rangeEnd ++ byte2 x.cursor := by
  unfold Scanner.walkBytes
  cases x.walk <;> rfl

/-- R187: an operand of SET WALK lies outside its bounds. -/
def walkOutOfRange (n b : Byte) (first last : Half) : Prop :=
  n.toNat = 0 ∨ b.toNat = 0 ∨ 128 < b.toNat ∨ 32767 < last.toNat ∨ last.toNat < first.toNat

/-- The range start needs no bound of its own. -/
theorem walkOutOfRange_iff : walkOutOfRange n b first last ↔
    n.toNat = 0 ∨ b.toNat = 0 ∨ 128 < b.toNat ∨ 32767 < first.toNat ∨ 32767 < last.toNat ∨
      last.toNat < first.toNat := by
  unfold walkOutOfRange
  omega

theorem takeSetWalk_badCode (h : 1 < e.toNat) :
    takeSetWalk e n b first last s = answer .range s.scanner.walkBytes s := by
  have hcode : boolOfCode e = none := by
    unfold boolOfCode
    rw [if_neg, if_neg] <;> rintro rfl <;> exact absurd h (by decide)
  simp only [takeSetWalk, hcode]

theorem takeSetWalk_off :
    takeSetWalk 0 n b first last s = answer .ok s.scanner.turnOff.walkBytes (s.setScanner s.scanner.turnOff) := rfl

theorem takeSetWalk_outOfRange (h : walkOutOfRange n b first last) :
    takeSetWalk 1 n b first last s = answer .range s.scanner.walkBytes s :=
  if_pos (walkOutOfRange_iff.mp h)

theorem takeSetWalk_busy (h : ¬walkOutOfRange n b first last) (hwalk : s.scanner.walk ≠ .off) :
    takeSetWalk 1 n b first last s = answer .busy s.scanner.walkBytes s :=
  (if_neg (mt walkOutOfRange_iff.mpr h)).trans (if_pos hwalk)

/-- R187: the scanner as SET WALK turns it on. -/
def Scanner.turnOn (x : Scanner) (n b : Byte) (first last : Half) : Scanner :=
  { x with
    walk := .on, interval := n.toNat, blockSize := b.toNat
    rangeStart := first.toNat, rangeEnd := last.toNat, cursor := first.toNat, sweeps := 0
    intervalRemaining := some n.toNat, blockRemaining := none }

theorem takeSetWalk_on (h : ¬walkOutOfRange n b first last) (hwalk : s.scanner.walk = .off) :
    takeSetWalk 1 n b first last s = answer .ok (s.scanner.turnOn n b first last).walkBytes
      (s.setScanner (s.scanner.turnOn n b first last)) :=
  (if_neg (mt walkOutOfRange_iff.mpr h)).trans (if_neg (not_not_intro hwalk))

theorem Scanner.turnOff_between {x : Scanner} (hwalk : x.walk = .on) (hblock : x.blockRemaining = none) :
    x.turnOff = { x with walk := .off, intervalRemaining := none } := by
  simp only [Scanner.turnOff, hwalk, hblock]

theorem Scanner.turnOff_inBlock {x : Scanner} (hwalk : x.walk = .on) (hblock : x.blockRemaining.isSome = true) :
    x.turnOff = { x with walk := .stopping } := by
  obtain ⟨left, hl⟩ := Option.isSome_iff_exists.mp hblock
  simp only [Scanner.turnOff, hwalk, hl]

theorem Scanner.turnOff_still {x : Scanner} (hwalk : x.walk ≠ .on) : x.turnOff = x := by
  unfold Scanner.turnOff
  split
  · exact absurd ‹_› hwalk
  · exact absurd ‹_› hwalk
  all_goals rfl

end Sys2Proof.Machine

namespace Sys2Proof.Proofs
open Machine

/-- Settles O46, answer by answer; each carries the walk as the answer leaves it. -/
theorem walksAreSet : Obligations.WalksAreSet := by
  intro tag enable n b first last s ho bad answered
  have hanswer : ∀ (st : Status) (x : Scanner), takeSetWalk enable n b first last s =
      answer st x.walkBytes (s.setScanner x) →
      exec (.setWalk tag enable n b first last) s = answered st.code x := fun st x ht => by
    rw [exec_setWalk ho ht, Scanner.walkBytes_eq]
    rfl
  have hoff : enable = 0 → exec (.setWalk tag enable n b first last) s = answered 0x00 s.scanner.turnOff := by
    rintro rfl
    exact hanswer .ok _ takeSetWalk_off
  refine ⟨fun h => ?_, fun h hok hwalk => ?_, fun h hok hwalk hblock => ?_, fun h hwalk hblock => ?_,
    fun h hwalk hblock => ?_, fun h hwalk => ?_⟩
  · refine hanswer .range s.scanner ?_
    rcases h with h | ⟨rfl, hbad⟩
    · exact takeSetWalk_badCode h
    · exact takeSetWalk_outOfRange hbad
  · subst h
    exact hanswer .busy s.scanner (takeSetWalk_busy hok hwalk)
  · subst h
    rw [hanswer .ok _ (takeSetWalk_on hok hwalk), Scanner.turnOn, ← hblock]
    rfl
  · rw [hoff h, Scanner.turnOff_between hwalk hblock]
  · rw [hoff h, Scanner.turnOff_inBlock hwalk hblock]
  · rw [hoff h, Scanner.turnOff_still hwalk]

end Sys2Proof.Proofs
end

section
/-!
Standby and WAKE (R197, R212, R213): the end of the ENTER STANDBY reply, and a WAKE with the walk between blocks
and in one, whose pages are passed over round the range up to the first that is to be read.
-/
namespace Sys2Proof.Machine

variable {s : State} {tag : Byte} {left : Nat}

/-! ### The end of the reply (R212) -/

theorem exec_frameSent (hlive : s.inReset = false) : exec .frameSent s = .next s.completeSending.transmit :=
  event_live _ hlive

/-- R212: while the ENTER STANDBY reply is being sent, the event is the end of that frame. -/
theorem exec_standbyBegin (hlive : s.inReset = false) (hsends : s.link.sending = some .reply)
    (hwaits : s.link.awaiting = some .standby) : exec .standbyBegin s = .next s.completeSending.transmit := by
  change execStandbyBegin s = _
  rw [execStandbyBegin, event_live _ hlive, if_pos]
  simp only [Link.sendingAwaited, hsends, hwaits, and_self, decide_true]

theorem State.completeSending_standby (hsends : s.link.sending = some .reply)
    (hwaits : s.link.awaiting = some .standby) : s.completeSending = State.beginStandby
      { s with link := { s.link with sending := none, slot := none, lastSent := some .reply } } := by
  simp only [State.completeSending, hsends, State.afterReply, hwaits]

/-! ### WAKE (R213) -/

/-- R213: a WAKE is the one frame that reaches its block in standby. -/
theorem exec_wake_standby (hlive : s.inReset = false) (hready : s.link.ready = true) (hempty : s.link.requests = []) :
    exec (.wake tag) s = .next ((takeWake s).1.withReply 0x05 tag (takeWake s).2) := by
  change submit (.wake tag) takeWake s = _
  simp [submit, encodeRequest, hlive, hready, hempty, Instr.wellFormed, State.perform_transmit]

/-- R213: standby is over, and the scanner has cleared its suspension. -/
def State.awake (s : State) : State :=
  { s with
    link := { s.link with standby := false }
    selfRefresh := false
    scanner := { s.scanner with suspended := false } }

theorem takeWake_between (hstandby : s.link.standby = true) (hblock : s.scanner.blockRemaining = none) :
    takeWake s = answer .ok [] s.awake := by
  rw [takeWake, if_pos hstandby, State.resumeWalk]
  split
  · rename_i left hl
    cases hblock.symm.trans hl
  · rfl

/-- R197: a block in progress goes on at the cursor. -/
theorem takeWake_inBlock (hstandby : s.link.standby = true) (hblock : s.scanner.blockRemaining = some left) :
    takeWake s = answer .ok [] (s.awake.visitPages left) := by
  rw [takeWake, if_pos hstandby, State.resumeWalk]
  split
  · rename_i k hl
    obtain rfl : left = k := Option.some.inj (hblock.symm.trans hl)
    rfl
  · rename_i hl
    cases hblock.symm.trans hl

end Sys2Proof.Machine

namespace Sys2Proof.Proofs
open Machine

/-- Settles O12: the event that ends the reply, and the visits with which a WAKE goes on in a block. -/
theorem standbyBeginsAndEnds : Obligations.StandbyBeginsAndEnds := by
  refine ⟨fun s hlive hsends hwaits => ?_, fun tag s hlive hstandby hready hempty => ?_⟩
  · have hbegins := exec_standbyBegin hlive hsends hwaits
    refine ⟨?_, (exec_frameSent hlive).trans hbegins.symm⟩
    rw [hbegins, State.completeSending_standby hsends hwaits]
    rfl
  intro woken
  have hwakes : ∀ u x, takeWake s = answer .ok [] u → u = s.awake.setScanner { x with suspended := false } →
      exec (.wake tag) s = woken x := by
    rintro u x ht rfl
    rw [exec_wake_standby hlive hready hempty, ht]
    rfl
  refine ⟨fun hblock => hwakes _ _ (takeWake_between hstandby hblock) rfl, fun left hblock hx => ?_⟩
  have hvisits := takeWake_inBlock hstandby hblock
  refine ⟨fun m i hm hpass hread => ?_, fun hpass => ?_⟩
  · exact hwakes _ _ hvisits (State.visitPages_read m left s.awake i hm hx hpass hread)
  · have hends := State.visitPages_none left s.awake hx hpass
    refine ⟨fun hwalk => hwakes _ _ hvisits ?_, fun hwalk => hwakes _ _ hvisits ?_⟩
    · rw [hends, Scanner.endBlock_on (x := s.awake.scanner.after left) hwalk]
      rfl
    · rw [hends, Scanner.endBlock_stopping (x := s.awake.scanner.after left) hwalk]
      rfl

end Sys2Proof.Proofs
end

section
/-!
The choice of a free transmitter (R203), case by case.
-/
namespace Sys2Proof.Machine

section
variable {l : Link} {f : Frame} {n : QueuedNotice} {ns : List QueuedNotice}

/-- Link replies come first. -/
theorem Link.transmit_linkReply (hfree : l.sending = none) (hreplies : l.linkReplies ≠ []) :
    l.transmit = { l with sending := some .linkReply } := by
  obtain ⟨x, xs, hx⟩ := List.exists_cons_of_ne_nil hreplies
  simp only [Link.transmit, hfree, hx]

/-- A reply and a notice that both wait go by turns. -/
theorem Link.transmit_turn (hfree : l.sending = none) (hreplies : l.linkReplies = []) (hslot : l.slot = some f)
    (hnotices : l.notices = n :: ns) : l.transmit =
      if l.lastSent = some .reply then { l with sending := some (.notice n), notices := ns }
      else { l with sending := some .reply } := by
  simp only [Link.transmit, hfree, hreplies, hslot, hnotices]

theorem Link.transmit_reply (hfree : l.sending = none) (hreplies : l.linkReplies = []) (hslot : l.slot = some f)
    (hnotices : l.notices = []) : l.transmit = { l with sending := some .reply } := by
  simp only [Link.transmit, hfree, hreplies, hslot, hnotices]

theorem Link.transmit_notice (hfree : l.sending = none) (hreplies : l.linkReplies = []) (hslot : l.slot = none)
    (hnotices : l.notices = n :: ns) : l.transmit = { l with sending := some (.notice n), notices := ns } := by
  simp only [Link.transmit, hfree, hreplies, hslot, hnotices]

theorem Link.transmit_nothing (hfree : l.sending = none) (hreplies : l.linkReplies = []) (hslot : l.slot = none)
    (hnotices : l.notices = []) : l.transmit = l := by
  simp only [Link.transmit, hfree, hreplies, hslot, hnotices]

/-- What the transmitter can do: it goes on, begins what is there, or finds nothing. -/
theorem Link.transmit_cases (l : Link) :
    (l.sending.isSome = true ∧ l.transmit = l) ∨
    (l.linkReplies ≠ [] ∧ l.transmit = { l with sending := some .linkReply }) ∨
    (l.slot.isSome = true ∧ l.transmit = { l with sending := some .reply }) ∨
    (∃ n ns, l.notices = n :: ns ∧ l.transmit = { l with sending := some (.notice n), notices := ns }) ∨
    ((l.linkReplies = [] ∧ l.slot = none ∧ l.notices = []) ∧ l.transmit = l) := by
  cases hfree : l.sending with
  | some x => exact .inl ⟨rfl, Link.transmit_busy hfree⟩
  | none =>
    by_cases hreplies : l.linkReplies ≠ []
    · exact .inr (.inl ⟨hreplies, Link.transmit_linkReply hfree hreplies⟩)
    have hreplies := not_not.mp hreplies
    rcases Option.eq_none_or_eq_some l.slot with hslot | ⟨f, hslot⟩ <;>
      rcases eq_or_ne l.notices [] with hnotices | hnotices
    · exact .inr (.inr (.inr (.inr ⟨⟨hreplies, hslot, hnotices⟩, Link.transmit_nothing hfree hreplies hslot hnotices⟩)))
    · obtain ⟨n, ns, hnotices⟩ := List.exists_cons_of_ne_nil hnotices
      exact .inr (.inr (.inr (.inl ⟨n, ns, hnotices, Link.transmit_notice hfree hreplies hslot hnotices⟩)))
    · exact .inr (.inr (.inl ⟨hslot ▸ rfl, Link.transmit_reply hfree hreplies hslot hnotices⟩))
    · obtain ⟨n, ns, hnotices⟩ := List.exists_cons_of_ne_nil hnotices
      have hturn := Link.transmit_turn hfree hreplies hslot hnotices
      split at hturn
      · exact .inr (.inr (.inr (.inl ⟨n, ns, hnotices, hturn⟩)))
      · exact .inr (.inr (.inl ⟨hslot ▸ rfl, hturn⟩))

end

end Sys2Proof.Machine
end

section
/-!
The link under the work of the blocks (R201, R202, R209): the channels, the images, the imports, the walk, the time
base and the reference clock write nothing of it but notices, which stay within their places; said once for each
operation.
-/
namespace Sys2Proof.Machine

/-- R201, R202, R209: the link apart from its notices, and whether these are within their places. -/
def State.desk (s : State) : Link × Bool :=
  ({ s.link with notices := [], lost := false }, decide (s.link.notices.length ≤ Config.noticePlaces))

section
variable (s : State) (c : Chan)

/-! ### Writes of other parts -/

@[simp] theorem State.desk_notify (n : Notice) : (s.notify n).desk = s.desk := by
  unfold State.desk State.notify Link.notify
  simp only
  repeat' split
  case isTrue hroom => simp [Nat.succ_le_of_lt hroom, hroom.le]
  all_goals rfl

@[simp] theorem State.desk_setEngine (e : Engine) : (s.setEngine c e).desk = s.desk := rfl
@[simp] theorem State.desk_setTimer (t : Timer) : (s.setTimer c t).desk = s.desk := rfl
@[simp] theorem State.desk_setLatches (l : Latches) : (s.setLatches c l).desk = s.desk := rfl
@[simp] theorem State.desk_setRate (r : Rate) : (s.setRate c r).desk = s.desk := rfl
@[simp] theorem State.desk_setOutput (o : Output) : (s.setOutput c o).desk = s.desk := rfl
@[simp] theorem State.desk_hand (e : Instr) : (s.hand e).desk = s.desk := rfl
@[simp] theorem State.desk_taken (e : Instr) : (s.taken e).desk = s.desk := rfl
@[simp] theorem State.desk_withdraw (es : List Instr) : (s.withdraw es).desk = s.desk := rfl
@[simp] theorem State.desk_setHandle (h : Nat) (r : HandleRecord) : (s.setHandle h r).desk = s.desk := rfl
@[simp] theorem State.desk_setScanner (x : Scanner) : (s.setScanner x).desk = s.desk := rfl
@[simp] theorem State.desk_returnPages (i : Image) : (s.returnPages i).desk = s.desk := rfl
@[simp] theorem State.desk_mapImages (f : Image → Image) : (s.mapImages f).desk = s.desk := rfl
@[simp] theorem State.desk_beginRead (r : ImportRecord) : (s.beginRead r).desk = s.desk := rfl

end

/-- Actions in turn, none of which writes at the desk. -/
theorem State.desk_foldl {α : Type} (f : State → α → State) (hf : ∀ u a, (f u a).desk = u.desk) :
    ∀ (l : List α) (s : State), (l.foldl f s).desk = s.desk := by
  intro l
  induction l with
  | nil => intro s; rfl
  | cons a l ih => intro s; rw [List.foldl_cons, ih, hf]

theorem State.desk_eachChannel (f : Chan → State → State) (hf : ∀ c u, (f c u).desk = u.desk)
    (s : State) : (s.eachChannel f).desk = s.desk :=
  State.desk_foldl (fun u c => f c u) (fun u c => hf c u) allChannels s

/-! ### Images and imports -/

section
variable (s : State)

@[simp] theorem State.desk_release (n : Nat) : (s.release n).desk = s.desk := by
  unfold State.release
  simp only
  split
  · rfl
  · rw [State.desk_notify]; rfl

@[simp] theorem State.desk_endReference (c : Chan) : (s.endReference c).desk = s.desk := by
  unfold State.endReference
  split <;> simp

@[simp] theorem State.desk_discardIncoming (h : Nat) : (s.discardIncoming h).desk = s.desk := by
  unfold State.discardIncoming
  split <;> simp

@[simp] theorem State.desk_cancelImport (cause : CancelCause) : (s.cancelImport cause).desk = s.desk := by
  unfold State.cancelImport
  split
  · rfl
  · rw [State.desk_discardIncoming, State.desk_notify]; rfl

@[simp] theorem State.desk_dropIncoming (h : Nat) (cause : CancelCause) :
    (s.dropIncoming h cause).2.desk = s.desk := by
  unfold State.dropIncoming
  split <;> simp

@[simp] theorem State.desk_dispose (h : Nat) (i : Image) : (s.dispose h i).2.desk = s.desk := by
  unfold State.dispose
  split
  · simp
  · rfl

theorem State.desk_createImage {s u : State} {h n : Nat} {source : FillSource} {flag : Bool} {i : Image}
    (hc : s.createImage h n source flag = some (i, u)) : u.desk = s.desk := by
  obtain ⟨first, free, -, -, rfl⟩ := State.createImage_some hc
  rfl

theorem State.desk_commitAttempt {s u : State} {h : Nat} {i : Image} {d : Option (Nat × Disposition)}
    (hc : s.commitAttempt h i = .ok (d, u)) : u.desk = s.desk := by
  unfold State.commitAttempt at hc
  split at hc
  · obtain ⟨-, rfl⟩ := Prod.mk.inj (Except.ok.inj hc)
    rfl
  · split at hc
    · cases hc
    · obtain ⟨-, rfl⟩ := Prod.mk.inj (Except.ok.inj hc)
      simp

@[simp] theorem State.desk_writeImagePage (h : Nat) (i : Image) (k : Nat) (data : List Byte) :
    (s.writeImagePage h i k data).desk = s.desk := by
  unfold State.writeImagePage
  simp only
  split <;> rfl

@[simp] theorem State.desk_completePage (r : ImportRecord) (data : List Byte) :
    (s.completePage r data).desk = s.desk := by
  have hends : ∀ (u : State) (i : Image), (u.completeImport r i).desk = u.desk := fun u i => by
    unfold State.completeImport
    simp only [State.desk_notify]
    split
    · split
      · rfl
      · rename_i hc
        exact (State.desk_commitAttempt hc :)
    · rfl
  unfold State.completePage
  split
  · rfl
  · simp only
    split <;> simp [hends]

/-- R192: a mark is made at the images. -/
@[simp] theorem State.desk_compareRead (r : PageRead) : (s.compareRead r).desk = s.desk := by
  unfold State.compareRead State.markDamage
  repeat' split
  all_goals simp

@[simp] theorem State.desk_decayPage (page : Nat) (data : List Byte) :
    (s.decayPage page data).desk = s.desk := by
  unfold State.decayPage
  split <;> rfl

end

/-! ### Conditions, flags and timers -/

section
variable (s : State)

@[simp] theorem State.desk_test (c : Chan) (q : Condition) : (s.test c q).2.desk = s.desk := by
  have hconsume : ∀ o, (s.consume c o).desk = s.desk := fun o => by cases o <;> rfl
  unfold State.test
  repeat' split
  all_goals simp [hconsume]

@[simp] theorem State.desk_handChanges (f : Chan → Operand → Bool) :
    (s.handChanges f).desk = s.desk := by
  rw [State.handChanges_eq]
  rfl

@[simp] theorem State.desk_writeFlags (flags : BitVec 8) : (s.writeFlags flags).desk = s.desk := by
  unfold State.writeFlags
  exact State.desk_handChanges _ _

@[simp] theorem State.desk_triggerArrival (n : Fin 4) : (s.triggerArrival n).desk = s.desk := by
  unfold State.triggerArrival
  rw [State.desk_handChanges]
  refine State.desk_eachChannel _ (fun c u => ?_) s
  split <;> simp

@[simp] theorem State.desk_softwareTrigger (m : Byte) : (s.softwareTrigger m).desk = s.desk := by
  unfold State.softwareTrigger
  rw [State.desk_handChanges]
  refine State.desk_eachChannel _ (fun c u => ?_) s
  split <;> simp

@[simp] theorem State.desk_changeTriggerLine (n : Fin 4) (high : Bool) :
    (s.changeTriggerLine n high).desk = s.desk := by
  unfold State.changeTriggerLine
  simp only
  split
  · exact State.desk_triggerArrival _ n
  · rfl

@[simp] theorem State.desk_tapTimer (c : Chan) (tap : Fin 8) : (s.tapTimer c tap).desk = s.desk := by
  have hexpires : (s.expireTimer c).desk = s.desk := by
    have hlink : (s.expireTimer c).link =
        if (s.timer c).notify = true then s.link.notify (.timer c) else s.link := by
      rw [State.expireTimer_eq]
    unfold State.desk
    rw [hlink]
    split
    · exact s.desk_notify (.timer c)
    · rfl
  unfold State.tapTimer
  simp only
  repeat' split
  all_goals simp [hexpires]

@[simp] theorem State.desk_visitPages : ∀ (n : Nat) (s : State), (s.visitPages n).desk = s.desk := by
  intro n
  induction n with
  | zero => intro s; rfl
  | succ n ih =>
    intro s
    unfold State.visitPages
    split <;> simp [ih]

@[simp] theorem State.desk_endVisit : s.endVisit.desk = s.desk := by
  unfold State.endVisit
  simp only
  split <;> simp

@[simp] theorem State.desk_resumeWalk : s.resumeWalk.desk = s.desk := by
  unfold State.resumeWalk
  simp only
  split <;> simp

/-! ### The time base and the reference clock -/

@[simp] theorem State.desk_divide (k : Fin 7) : (s.divide k).desk = s.desk := rfl

@[simp] theorem State.desk_tapEvent (k : Fin 7) : (s.tapEvent k).desk = s.desk := by
  have hwalk : ∀ u : State, u.walkTick.desk = u.desk := fun u => by
    unfold State.walkTick State.beginBlock
    repeat' split
    all_goals simp
  have htap : ∀ u : State, (u.tap k).desk = u.desk := fun u => by
    have htimers := State.desk_eachChannel _ (fun c v => v.desk_tapTimer c (tapOf k)) u
    unfold State.tap
    simp only
    split
    · rw [hwalk, htimers]
    · exact htimers
  unfold State.tapEvent
  repeat' split
  all_goals simp [htap]

@[simp] theorem State.desk_endSwitch (source : Source) (lock : LockStatus) (cause : ReferenceCause) :
    (s.endSwitch source lock cause).desk = s.desk := by
  rw [State.endSwitch, State.desk_notify]
  rfl

@[simp] theorem State.desk_lockAcquired : s.lockAcquired.desk = s.desk := by
  unfold State.lockAcquired
  split <;> simp

@[simp] theorem State.desk_lockTimeoutExpired : s.lockTimeoutExpired.desk = s.desk := by
  unfold State.lockTimeoutExpired
  split <;> simp

@[simp] theorem State.desk_transferDone : s.transferDone.desk = s.desk := by
  unfold State.transferDone
  split <;> simp

@[simp] theorem State.desk_referenceLost : s.referenceLost.desk = s.desk := by
  unfold State.referenceLost
  split <;> rfl

end

/-! ### The channel engines -/

section
variable (s : State) (c : Chan)

@[simp] theorem State.desk_idleChannel : (s.idleChannel c).desk = s.desk := by
  rw [State.idleChannel_eq]
  rfl

@[simp] theorem State.desk_endRun (cause : RunEndCause) : (s.endRun c cause).desk = s.desk := by
  simp [State.endRun]

@[simp] theorem State.desk_faultChannel (cause : FaultCause) (k : Option Nat) :
    (s.faultChannel c cause k).desk = s.desk := by
  simp [State.faultChannel, State.haltTimer, State.restOutput]

theorem State.desk_loopTest (c : Chan) (i : Nat) : ∀ (turns : Nat) (s : State),
    (s.loopTest c i turns).2.desk = s.desk := by
  intro turns
  induction turns with
  | zero => intro s; rfl
  | succ n ih =>
    intro s
    unfold State.loopTest
    simp only
    repeat' split
    all_goals simp [ih, State.setLoops]

@[simp] theorem State.desk_advance : (s.advance c).1.desk = s.desk := by
  unfold State.advance
  simp only
  split <;> simp [State.goTo, State.desk_loopTest]

/-- R78, R87: a step of any kind. -/
@[simp] theorem State.desk_executeStep : (s.executeStep c).1.desk = s.desk := by
  unfold State.executeStep
  split
  case h_1 => simp
  case h_2 =>
    unfold State.playStep
    split <;> simp [State.takeReference, State.markOutput]
  case h_3 =>
    unfold State.loopStep
    simp only
    repeat' split
    all_goals simp [State.goTo, State.setLoops]
  case h_4 =>
    unfold State.branchStep
    simp only
    repeat' split
    all_goals simp [State.goTo, State.setLoops]
  case h_5 =>
    unfold State.callStep
    simp only
    repeat' split
    all_goals simp
  case h_6 =>
    unfold State.returnStep
    simp only
    repeat' split
    all_goals simp
  case h_7 =>
    unfold State.waitStep
    simp only
    split <;> simp
  case h_8 => simp [State.loadTimer]
  case h_9 =>
    unfold State.signalStep
    simp only
    rw [State.desk_advance]
    repeat' split
    all_goals simp

@[simp] theorem State.desk_takeSteps : ∀ (n : Nat) (s : State), (s.takeSteps c n).desk = s.desk := by
  intro n
  induction n with
  | zero => intro s; rfl
  | succ n ih =>
    intro s
    unfold State.takeSteps
    simp only
    split <;> simp [ih, State.countStep]

@[simp] theorem State.desk_stepEvent : (s.stepEvent c).desk = s.desk := by
  simp [State.stepEvent, State.beginEvent]

@[simp] theorem State.desk_advanceEvent : (s.advanceEvent c).desk = s.desk := by
  unfold State.advanceEvent
  simp only
  split <;> simp [State.beginEvent]

/-! ### Starts, releases, pauses and stops -/

@[simp] theorem State.desk_startTest : (s.startTest c).desk = s.desk := by
  have hstarts : ∀ u : State, (u.startChannel c).desk = u.desk := fun u => by
    unfold State.startChannel
    simp only
    split <;> simp [State.beginEvent]
  unfold State.startTest
  simp only
  repeat' split
  all_goals simp [hstarts]

@[simp] theorem State.desk_releaseTest : (s.releaseTest c).desk = s.desk := by
  unfold State.releaseTest
  simp only
  repeat' split
  all_goals simp

@[simp] theorem State.desk_goOn : (s.goOn c).desk = s.desk := by
  unfold State.goOn
  split <;> simp

@[simp] theorem State.desk_pauseChanged : (s.pauseChanged c).desk = s.desk := by
  unfold State.pauseChanged
  simp only
  split <;> simp

@[simp] theorem State.desk_followPauseLine : (s.followPauseLine c).desk = s.desk := by
  simp [State.followPauseLine]

@[simp] theorem State.desk_pauseChannel : (s.pauseChannel c).desk = s.desk := by
  unfold State.pauseChannel
  split <;> simp

@[simp] theorem State.desk_resumeChannel : (s.resumeChannel c).desk = s.desk := by
  simp [State.resumeChannel]

@[simp] theorem State.desk_stopNow : (s.stopNow c).desk = s.desk := by
  unfold State.stopNow
  split <;> simp

@[simp] theorem State.desk_stopAfterPlay : (s.stopAfterPlay c).desk = s.desk := by
  unfold State.stopAfterPlay
  split <;> simp

@[simp] theorem State.desk_runChannels (mask : Byte) (start : Nat) (q : Condition) :
    (s.runChannels mask start q).desk = s.desk := by
  unfold State.runChannels
  simp only
  rw [State.desk_foldl _ (fun u c => u.desk_startTest c),
    State.desk_foldl (fun u c => u.armChannel start q c) (fun u c => rfl), State.desk_withdraw]

/-! ### Passes and sample periods -/

@[simp] theorem State.desk_passComplete (p : PlayRecord) (counted : Bool) :
    (s.passComplete c p counted).desk = s.desk := by
  have hcompletes : ∀ u : State, (u.completePlay c p).desk = u.desk := fun u => by
    unfold State.completePlay
    simp only
    split <;> simp [State.beginEvent, State.markOutput]
  have hholds : ∀ u : State, (u.holdTest c p).desk = u.desk := fun u => by
    unfold State.holdTest
    simp only
    repeat' split
    all_goals simp [hcompletes, State.setActivity]
  unfold State.passComplete
  simp only
  split <;> simp [hholds, State.setActivity]

@[simp] theorem State.desk_waitPeriod (w : WaitRecord) : (s.waitPeriod c w).desk = s.desk := by
  unfold State.waitPeriod
  split <;> rfl

@[simp] theorem State.desk_samplePeriod : (s.samplePeriod c).desk = s.desk := by
  have hcarries : ∀ u : State, (u.carryRest c).desk = u.desk := fun u => rfl
  have hfrozen : ∀ u : State, (u.frozenPeriod c).desk = u.desk := fun u => by
    unfold State.frozenPeriod
    repeat' split
    all_goals simp [hcarries, State.carryCode]
  have hplays : ∀ (u : State) p b, (u.playPeriod c p b).desk = u.desk := fun u p b => by
    unfold State.playPeriod
    simp only
    split <;> simp [State.setActivity, State.deliverSample]
  unfold State.samplePeriod
  simp only
  repeat' split
  all_goals simp [hcarries, hfrozen, hplays]

@[simp] theorem State.desk_periodEvent : (s.periodEvent c).desk = s.desk := by
  simp [State.periodEvent]

@[simp] theorem State.desk_raiseEvent (target : HoldTarget) : (s.raiseEvent target).desk = s.desk := by
  unfold State.raiseEvent State.raiseHold
  simp only
  repeat' split
  all_goals simp

end

end Sys2Proof.Machine
end

section
/-!
The link under the requests: all but CL's own write nothing of it but notices.
-/
namespace Sys2Proof.Machine

/-! ### Requests on images and imports -/

section
variable (s : State)

theorem State.desk_takeDefineImage (h : Half) (n : Quad) (b : Byte) :
    (takeDefineImage h n b s).1.desk = s.desk := by
  simp only [takeDefineImage, answer, refuse]
  repeat' split
  case h_2 hc => exact State.desk_createImage hc
  all_goals rfl

theorem State.desk_takeStartImport (h : Half) (a n : Quad) (b : Byte) :
    (takeStartImport h a n b s).1.desk = s.desk := by
  simp only [takeStartImport, answer, refuse]
  repeat' split
  case h_2 hc => exact (State.desk_beginRead _ _).trans (State.desk_createImage hc)
  all_goals rfl

theorem State.desk_takeFinishImage (h : Half) : (takeFinishImage h s).1.desk = s.desk := by
  simp only [takeFinishImage, answer, refuse]
  repeat' split
  case h_2 hc => exact (State.desk_commitAttempt hc :)
  all_goals rfl

theorem State.desk_takeCommit (h : Half) : (takeCommit h s).1.desk = s.desk := by
  simp only [takeCommit, answer, refuse]
  repeat' split
  case h_2 hc => exact State.desk_commitAttempt hc
  case h_2 hc => exact State.desk_commitAttempt hc
  all_goals rfl

theorem State.desk_takeReleaseHandle (h : Half) : (takeReleaseHandle h s).1.desk = s.desk := by
  have hreleases : ∀ h, (s.releaseIncoming h).2.desk = s.desk := fun h => by
    unfold State.releaseIncoming
    split <;> simp
  simp only [takeReleaseHandle, answer, refuse]
  repeat' split
  all_goals simp [hreleases]

theorem State.desk_takeCloseLibrary : (takeCloseLibrary s).1.desk = s.desk := by
  simp only [takeCloseLibrary, answer]
  split
  · rfl
  · exact State.desk_cancelImport _ _

/-! ### Requests on the engines and the clock -/

theorem State.desk_takeStop (m o : Byte) : (takeStop m o s).1.desk = s.desk := by
  unfold takeStop
  split
  · rfl
  · split
    · rfl
    · refine State.desk_foldl _ (fun u c => ?_) _ s
      split <;> simp

theorem State.desk_takePause (m : Byte) : (takePause m s).1.desk = s.desk := by
  unfold takePause
  split
  · rfl
  · exact State.desk_foldl _ (fun u c => u.desk_pauseChannel c) _ s

theorem State.desk_takeResume (m : Byte) : (takeResume m s).1.desk = s.desk := by
  unfold takeResume
  split
  · rfl
  · exact State.desk_foldl _ (fun u c => u.desk_resumeChannel c) _ s

theorem State.desk_takeSetReference (x : Byte) : (takeSetReference x s).1.desk = s.desk := by
  simp only [takeSetReference, answer]
  repeat' split
  all_goals rfl

end

/-- A request that CL carries out at the link itself (R209, R212 to R214). -/
def linkCarries : Instr → Bool
  | .resetEngine _ | .enterStandby _ | .wake _ | .setNotices _ _ => true
  | _ => false

/-- What a block does with a request that is not CL's own. -/
theorem State.desk_take {i : Instr} {take : State → Answer} (h : takeOf i = some take)
    (hi : linkCarries i = false) (s : State) : (take s).1.desk = s.desk := by
  cases i <;> simp only [takeOf, Option.some.injEq, reduceCtorEq] at h <;> subst h
  case resetEngine | enterStandby | wake | setNotices => cases hi
  case defineImage => exact s.desk_takeDefineImage _ _ _
  case startImport => exact s.desk_takeStartImport _ _ _ _
  case finishImage => exact s.desk_takeFinishImage _
  case commit => exact s.desk_takeCommit _
  case releaseHandle => exact s.desk_takeReleaseHandle _
  case closeLibrary => exact s.desk_takeCloseLibrary
  case stop => exact s.desk_takeStop _ _
  case pause => exact s.desk_takePause _
  case resume => exact s.desk_takeResume _
  case setReference => exact s.desk_takeSetReference _
  case identify | readDevice | readGuards | readImport | readWalk | readConditions | readClock => rfl
  case writePage | dropIncoming | cancelImport | run | clearFault | setPolicy | setFlags | fireTrigger =>
    simp only [takeWritePage, takeDropIncoming, takeCancelImport, takeRun, takeClearFault, takeSetPolicy,
      takeSetFlags, takeFireTrigger, answer, refuse]
    repeat' split
    all_goals simp
  all_goals
    simp only [takeReadHandle, takeReadMap, takeSetGuard, takeClearGuard,
      takeLockGuards, takeSetPartition, takeWriteSteps, takeReadSteps, takeReadChannel, takeSetRoute,
      takeSetWalk, takeSetRate, takeSetOutput, takeReadOutput, answer, refuse]
    repeat' split
    all_goals rfl

end Sys2Proof.Machine
end

section
/-!
The invariant of the link (R201, R202, R203, R209): what all of an event's work keeps of it (`Link.Steady`), and that
the transmitter's choice at the event's end restores the rest.
-/
namespace Sys2Proof.Machine

/-! ### The invariant in three strengths -/

/-- R201, R203, R209: the queues in their places, which a reply that is still to be placed does not touch. -/
structure Link.Bounded (l : Link) : Prop where
  requests : l.requests.length ≤ Config.requestPlaces
  linkReplies : l.linkReplies.length ≤ Config.linkReplyPlaces
  notices : l.notices.length ≤ Config.noticePlaces
  mask : l.mask.msb = false
  sendingLinkReply : l.sending = some .linkReply → l.linkReplies ≠ []

/-- R202, R203: what is sent and what is awaited is there. The transmitter may still be free while something waits,
as it is within an event. -/
structure Link.Steady (l : Link) : Prop extends l.Bounded where
  sendingReply : l.sending = some .reply → l.slot.isSome = true
  awaiting : l.awaiting.isSome = true → l.slot.isSome = true

section
variable {l : Link} {s t : State} {c : Chan}

theorem Link.Wf.steady (h : l.Wf) : l.Steady :=
  ⟨⟨h.requests, h.linkReplies, h.notices, h.mask, h.sendingLinkReply⟩, h.sendingReply, h.awaiting⟩

/-- R202: with a reply in the slot nothing that is sent or awaited is missing. -/
theorem Link.Bounded.placeReply (h : l.Bounded) (f : Frame) : (l.placeReply f).Steady :=
  { h with sendingReply := fun _ => rfl, awaiting := fun _ => rfl }

/-- R203: a link that sends no reply and waits for none needs none in the slot. -/
theorem Link.Bounded.steady (h : l.Bounded) (hsending : l.sending ≠ some .reply) (hawaiting : l.awaiting = none) :
    l.Steady :=
  { h with
    sendingReply := fun hs => absurd hs hsending
    awaiting := fun ha => by simp [hawaiting] at ha }

/-- R203: at the end of an event the transmitter is busy or nothing waits. -/
theorem Link.Steady.transmit (h : l.Steady) : l.transmit.Wf := by
  rcases l.transmit_cases with ⟨hbusy, ht⟩ | ⟨hreplies, ht⟩ | ⟨hslot, ht⟩ | ⟨n, ns, hnotices, ht⟩ | ⟨hnothing, ht⟩ <;>
    rw [ht]
  · exact { h with busy := fun hfree => by simp [hfree] at hbusy }
  · exact { h with sendingLinkReply := fun _ => hreplies, sendingReply := nofun, busy := nofun }
  · exact { h with sendingLinkReply := nofun, sendingReply := fun _ => hslot, busy := nofun }
  · have hlength : ns.length + 1 ≤ Config.noticePlaces := by simpa [hnotices] using h.notices
    exact { h with
      notices := Nat.le_of_succ_le hlength, sendingLinkReply := nofun, sendingReply := nofun, busy := nofun }
  · exact { h with busy := fun _ => hnothing }

theorem State.wf_transmit (h : s.link.Steady) : s.transmit.link.Wf := h.transmit

theorem State.steady_transmit (h : s.link.Steady) : s.transmit.link.Steady := h.transmit.steady

/-! ### Notices -/

/-- What shows at the desk is what the bounds are about. -/
theorem Link.Bounded.of_desk (h : s.link.Bounded) (hdesk : t.desk = s.desk) : t.link.Bounded := by
  simp only [State.desk, Prod.mk.injEq, Link.mk.injEq, decide_eq_decide] at hdesk
  obtain ⟨⟨-, hrequests, -, hreplies, hsending, -, -, hmask, -⟩, hnotices⟩ := hdesk
  exact ⟨hrequests ▸ h.requests, hreplies ▸ h.linkReplies, hnotices.mpr h.notices, hmask ▸ h.mask,
    hsending ▸ hreplies ▸ h.sendingLinkReply⟩

/-- The work of the blocks keeps the link steady (R209). -/
theorem Link.Steady.of_desk (h : s.link.Steady) (hdesk : t.desk = s.desk) : t.link.Steady := by
  refine ⟨h.toBounded.of_desk hdesk, ?_, ?_⟩ <;>
    simp only [State.desk, Prod.mk.injEq, Link.mk.injEq] at hdesk <;>
    obtain ⟨⟨-, -, hslot, -, hsending, -, -, -, -, -, hawaiting⟩, -⟩ := hdesk
  · exact hsending ▸ hslot ▸ h.sendingReply
  · exact hawaiting ▸ hslot ▸ h.awaiting

/-! ### Events within an event (log entry 32) -/

theorem State.steady_foldl {α : Type} {f : State → α → State}
    (hf : ∀ (u : State) a, u.link.Steady → (f u a).link.Steady) :
    ∀ (xs : List α) (s : State), s.link.Steady → (xs.foldl f s).link.Steady := by
  intro xs
  induction xs with
  | nil => intro s hs; exact hs
  | cons x xs ih => intro s hs; exact ih _ (hf s x hs)

theorem State.steady_passPeriods : ∀ (n : Nat) (s : State), s.link.Steady → (s.passPeriods c n).link.Steady := by
  intro n
  induction n with
  | zero => intro s hs; exact hs
  | succ n ih =>
    intro s hs
    unfold State.passPeriods
    split
    · refine ih _ ?_
      split
      · exact hs
      · exact State.steady_transmit (hs.of_desk (s.desk_periodEvent c))
    · exact hs

theorem State.steady_dropHold (hs : s.link.Steady) : (s.dropHold c).link.Steady := by
  unfold State.dropHold
  simp only
  split
  · have hpassed := State.steady_passPeriods (c := c) (s.periodsBefore c (.holdDrop (.channel c)))
      (s.setEngine c { s.engine c with held := false }) hs
    split
    · exact Link.Steady.of_desk hpassed (by simp)
    · exact Link.Steady.of_desk hpassed (by simp)
    all_goals exact hpassed
  · exact hs

theorem State.steady_changeEvent (hs : s.link.Steady) : (s.changeEvent c).link.Steady := by
  have hpassed : (if (s.engine c).retests then s.passPeriods c (s.periodsBefore c (.operandChange c))
      else s).link.Steady := by
    split
    · exact State.steady_passPeriods _ s hs
    · exact hs
  unfold State.changeEvent
  simp only
  split
  · exact hpassed.of_desk (by simp)
  · exact hpassed.of_desk (by simp)
  all_goals exact hpassed

theorem State.steady_dropEvent (hs : s.link.Steady) (target : HoldTarget) : (s.dropEvent target).link.Steady := by
  unfold State.dropEvent
  split
  · exact State.steady_dropHold hs
  all_goals exact hs

theorem State.steady_catchUp (hs : s.link.Steady) (e : Instr) : (s.catchUp c e).link.Steady := by
  refine State.steady_foldl (fun u e hu => State.steady_transmit ?_) _ s hs
  unfold State.signalEvent
  split
  · exact State.steady_changeEvent hu
  · exact hu.of_desk (u.desk_raiseEvent _)
  · exact State.steady_dropEvent hu _
  · exact hu

theorem State.steady_catchUpAt (hs : s.link.Steady) (target : HoldTarget) (e : Instr) :
    (s.catchUpAt target e).link.Steady := by
  unfold State.catchUpAt
  split
  · exact State.steady_catchUp hs e
  all_goals exact hs

/-! ### Frames that arrive (R200, R201) -/

theorem Link.Steady.addLinkReply (h : l.Steady) (f : Frame) : (l.addLinkReply f).Steady := by
  unfold Link.addLinkReply
  split
  case isTrue hroom =>
    exact { h with
      linkReplies := by simpa using Nat.succ_le_of_lt hroom
      sendingLinkReply := fun _ => by simp }
  · exact h

theorem State.steady_arrive (hs : s.link.Steady) (f : Frame) : (s.arrive f).link.Steady := by
  unfold State.arrive
  split
  · exact hs
  · simp only [Link.arrive]
    split
    case isTrue hroom => exact { hs with requests := by simpa using Nat.succ_le_of_lt hroom }
    · exact hs.addLinkReply _

theorem State.steady_setReceive (hs : s.link.Steady) (r : Receive) : (s.setReceive r).link.Steady :=
  { hs with }

theorem State.steady_failFrame (hs : s.link.Steady) (st : Status) (tag : Byte) :
    (s.failFrame st tag).link.Steady := by
  unfold State.failFrame
  split
  · exact hs
  · exact hs.addLinkReply _

theorem State.steady_receiveByte (hs : s.link.Steady) (b : Byte) : (s.receiveByte b).link.Steady := by
  have hheader : ∀ taken, (s.takeHeader taken).link.Steady := fun taken => by
    unfold State.takeHeader
    simp only
    repeat' split
    · exact State.steady_setReceive (State.steady_failFrame hs _ _) _
    all_goals exact State.steady_setReceive hs _
  have hcheck : ∀ f w, (s.checkFrame f w).link.Steady := fun f w => by
    unfold State.checkFrame
    simp only
    split
    · exact State.steady_arrive (State.steady_setReceive hs _) f
    · exact State.steady_failFrame (State.steady_setReceive hs _) _ _
  unfold State.receiveByte
  repeat' split
  case h_2 => exact hheader _
  case h_5 => exact hcheck _ _
  case h_6 | isFalse => exact hs
  all_goals exact State.steady_setReceive hs _

theorem State.steady_discardPartial (hs : s.link.Steady) (r : Receive) : (s.discardPartial r).link.Steady := by
  unfold State.discardPartial
  refine State.steady_setReceive ?_ r
  split
  · exact State.steady_failFrame hs _ _
  · exact hs

theorem State.steady_framingError (hs : s.link.Steady) : s.framingError.link.Steady := by
  unfold State.framingError
  split
  case h_1 | h_2 => exact hs
  all_goals exact State.steady_discardPartial hs _

theorem State.steady_linkGap (hs : s.link.Steady) : s.linkGap.link.Steady := by
  unfold State.linkGap
  split
  case h_1 => exact hs
  case h_2 => exact State.steady_setReceive hs _
  all_goals exact State.steady_discardPartial hs _

/-! ### Requests (R202) -/

/-- What a block does with a request; its reply is still to be placed. -/
theorem Link.Bounded.take {i : Instr} {take : State → Answer} (hs : s.link.Bounded) (h : takeOf i = some take) :
    (take s).1.link.Bounded := by
  cases hi : linkCarries i with
  | false => exact hs.of_desk (State.desk_take h hi s)
  | true =>
    cases i <;> simp only [linkCarries, reduceCtorEq] at hi <;> obtain rfl := Option.some.inj h
    case resetEngine => exact { hs with }
    case enterStandby =>
      unfold takeEnterStandby
      split
      · exact { hs with }
      · exact hs
    case wake =>
      unfold takeWake
      split
      · exact Link.Bounded.of_desk (s := { s with link := { s.link with standby := false }, selfRefresh := false })
          { hs with } (State.desk_resumeWalk _)
      · exact hs
    case setNotices mask =>
      unfold takeSetNotices
      split
      · exact hs
      case isFalse hmask => exact { hs with mask := Bool.eq_false_iff.mpr hmask }

theorem State.steady_handOnNext (hs : s.link.Steady) : s.handOnNext.link.Steady := by
  unfold State.handOnNext
  split
  case h_2 => exact hs
  case h_1 f rest _ hrequests =>
    have hrest : rest.length + 1 ≤ Config.requestPlaces := by simpa [hrequests] using hs.requests
    have hs' : ({ s.link with requests := rest } : Link).Steady := { hs with requests := Nat.le_of_succ_le hrest }
    unfold State.handOn
    split
    case h_1 | h_2 => exact hs'.placeReply _
    case h_3 =>
      split
      case h_1 take ht =>
        exact (Link.Bounded.take (s := { s with link := { s.link with requests := rest } }) hs'.toBounded ht).placeReply _
      case h_2 => exact hs'

/-! ### The end of a sent frame (R203, R212, R214) -/

/-- R214: the blocks hand over notices, which the reset discards. -/
theorem Link.Bounded.engineReset (hs : s.link.Bounded) (hsending : s.link.sending = none) :
    s.engineReset.link.Steady := by
  have hchannel : ∀ (c : Chan) (u : State), (u.resetChannel c).desk = u.desk := fun c u => by
    simp [State.resetChannel]
  have hdesk : ((s.eachChannel fun c s => s.resetChannel c).cancelImport .request).desk = s.desk := by
    rw [State.desk_cancelImport, State.desk_eachChannel _ hchannel]
  have hblocks := hs.of_desk hdesk
  have hfree := (congrArg (·.1.sending) hdesk).trans hsending
  unfold State.engineReset
  generalize (s.eachChannel fun c s => s.resetChannel c).cancelImport .request = u at hblocks hfree
  refine Link.Bounded.steady { hblocks with notices := Nat.zero_le _ } ?_ rfl
  rw [show u.link.sending = none from hfree]
  nofun

theorem State.steady_completeSending (hs : s.link.Steady) : s.completeSending.link.Steady := by
  unfold State.completeSending
  split
  case h_1 => exact hs
  case h_2 =>
    exact { hs with
      linkReplies := s.link.linkReplies.length_tail ▸ (Nat.sub_le _ 1).trans hs.linkReplies
      sendingLinkReply := nofun, sendingReply := nofun }
  case h_3 =>
    have hfree : ({ s.link with sending := none, slot := none, lastSent := some .reply } : Link).Bounded :=
      { hs with sendingLinkReply := nofun }
    unfold State.afterReply
    split
    case h_1 hawaiting => exact hfree.steady nofun hawaiting
    case h_2 => exact Link.Bounded.steady { hfree with requests := Nat.zero_le _ } nofun rfl
    case h_3 => exact Link.Bounded.engineReset hfree rfl
  case h_4 => exact { hs with sendingLinkReply := nofun, sendingReply := nofun }

/-! ### Commands -/

theorem Link.Wf.event {f : State → State} (hs : s.link.Wf) (hf : (f s).link.Steady)
    (h : event f s = .next t) : t.link.Wf := by
  obtain rfl := Host.Outcome.next.inj h
  split
  · exact hs
  · exact State.wf_transmit hf

/-- An event that is the work of the blocks. -/
theorem Link.Wf.blockEvent {f : State → State} (hs : s.link.Wf) (hf : (f s).desk = s.desk)
    (h : Machine.event f s = .next t) : t.link.Wf :=
  hs.event (hs.steady.of_desk hf) h

theorem Link.Wf.request {i : Instr} {take : State → Answer} (hs : s.link.Wf) (ht : takeOf i = some take)
    (h : exec i s = .next t) : t.link.Wf := by
  rw [exec_request ht s] at h
  rcases submit_cases i take s with h' | ⟨f, -, h' | h' | h'⟩ <;>
    obtain rfl := Host.Outcome.next.inj (h'.symm.trans h)
  · exact hs
  · exact ((hs.steady.toBounded.take ht).placeReply _).transmit
  · exact (hs.steady.placeReply _).transmit
  · exact (State.steady_arrive hs.steady f).transmit

theorem Link.wf_reset : Link.reset.Wf := by
  obtain ⟨-, -, hlink, -⟩ := Proofs.resetMeetsEveryInvariant
  exact hlink

/-- Every command keeps the invariant of the link. -/
theorem Link.Wf.exec (hs : s.link.Wf) (i : Instr) (h : exec i s = .next t) : t.link.Wf := by
  have hst := hs.steady
  cases i
  case receiveCharacter =>
    change execReceiveCharacter _ _ s = .next t at h
    refine hs.event ?_ h
    split
    · exact State.steady_receiveByte hst _
    · exact State.steady_framingError hst
  case linkGapTimeout => exact hs.event (State.steady_linkGap hst) h
  case requestHandOn => exact hs.event (State.steady_handOnNext hst) h
  case frameSent => exact hs.event (State.steady_completeSending hst) h
  case standbyBegin | engineResetPerformed =>
    refine hs.event ?_ h
    split
    · exact State.steady_completeSending hst
    · exact hst
  case powerOnReset =>
    obtain rfl := Host.Outcome.next.inj h
    split
    · exact Link.wf_reset
    · rw [(State.leaveReset_quiet _).1]
      exact Link.wf_reset
  case resetLine =>
    obtain rfl := Host.Outcome.next.inj h
    exact Link.wf_reset
  case resetLineRelease =>
    obtain rfl := Host.Outcome.next.inj h
    split
    · rw [(State.leaveReset_quiet _).1]
      exact { hs with }
    · exact hs
  case guardEnableChange =>
    obtain rfl := Host.Outcome.next.inj h
    exact hst.transmit
  case pauseLineChange =>
    obtain rfl := Host.Outcome.next.inj h
    refine State.wf_transmit (Link.Steady.of_desk hst ?_)
    rw [State.desk_eachChannel _ fun c u => u.desk_followPauseLine c]
    rfl
  case triggerLineChange =>
    obtain rfl := Host.Outcome.next.inj h
    exact State.wf_transmit (hst.of_desk (s.desk_changeTriggerLine _ _))
  case lockAcquired => exact hs.blockEvent s.desk_lockAcquired h
  case lockTimeoutExpiry =>
    change execLockTimeoutExpiry s = .next t at h
    refine hs.blockEvent ?_ h
    simp
  case referenceLost => exact hs.blockEvent s.desk_referenceLost h
  case transferDone => exact hs.blockEvent s.desk_transferDone h
  case holdRaise =>
    refine hs.event ?_ h
    split
    · exact (State.steady_catchUpAt hst _ _).of_desk (State.desk_raiseEvent _ _)
    · exact hst
  case holdDrop =>
    refine hs.event ?_ h
    split
    · exact State.steady_dropEvent (State.steady_catchUpAt hst _ _) _
    · exact hst
  case samplePeriod c =>
    change execSamplePeriod c s = .next t at h
    refine hs.event ?_ h
    split
    · exact hst
    · simp only
      split
      · exact (State.steady_catchUp hst _).of_desk (State.desk_periodEvent _ c)
      · exact State.steady_catchUp hst _
  case timeBaseTap k => exact hs.blockEvent (s.desk_tapEvent k) h
  case timerExpiry =>
    change execTimerExpiry _ s = .next t at h
    refine hs.blockEvent ?_ h
    split <;> simp
  case operandChange =>
    change execOperandChange _ s = .next t at h
    exact hs.event (State.steady_changeEvent (State.steady_catchUp hst _)) h
  case importPageComplete =>
    change execImportPageComplete _ _ s = .next t at h
    refine hs.blockEvent ?_ h
    repeat' split
    all_goals simp
  case walkIntervalExpiry =>
    refine hs.blockEvent ?_ h
    split <;> simp
  case scanReadComplete =>
    change execScanReadComplete _ s = .next t at h
    refine hs.blockEvent ?_ h
    repeat' split
    all_goals simp
  case pageDecay =>
    obtain rfl := Host.Outcome.next.inj h
    refine State.wf_transmit (Link.Steady.of_desk hst ?_)
    split <;> simp
  all_goals exact hs.request rfl h

/-- R134: a master period passes the link by. -/
theorem State.link_tick (s : State) : s.tick.link = s.link := by
  have htimeout : s.tickTimeout.link = s.link := by
    unfold State.tickTimeout
    simp only
    repeat' split
    all_goals rfl
  have hchain : ∀ u : State, u.tickChain.link = u.link := fun u => rfl
  unfold State.tick
  simp only
  repeat' split
  · rfl
  · exact htimeout
  · rw [hchain, s.tickTimeout.tickPhases_eq.1]
    exact htimeout

/-- A step of the machine keeps it. -/
theorem Link.Wf.step (hs : s.link.Wf) (h : step s = .next t) : t.link.Wf := by
  unfold Machine.step at h
  split at h
  · rename_i c rest _
    have hrest : ({ s with pending := rest } : State).link.Wf := hs
    exact hrest.exec c h
  · unfold idle at h
    split at h
    · exact hs.exec _ h
    · obtain rfl := Host.Outcome.next.inj h
      rw [State.link_tick]
      exact hs

end

end Sys2Proof.Machine

namespace Sys2Proof.Proofs
open Machine

/-- Settles O58: the work of an event keeps the queues in their places and what is sent and awaited there, and the
transmitter, which chooses at its end, is then busy or nothing waits. -/
theorem linkQueuesStayBounded : Obligations.LinkQueuesStayBounded := by
  intro s t hs h
  exact hs.step h

end Sys2Proof.Proofs
end

section
/-!
The frame of a request, read again (R202, R206, R207): fields at their places in a payload, the lists of the requests
that carry some, and what CL finds in a frame.
-/
namespace Sys2Proof.Machine

/-! ### Fields (R206) -/

section
variable (b : Byte) (x : Half) (y : Quad) (p : List Byte) (k : Nat)

/-- Neighbouring bits of a word are one part of it. -/
theorem bits_append {w : Nat} (z : BitVec w) (start len len' : Nat) :
    z.extractLsb' (start + len) len' ++ z.extractLsb' start len = z.extractLsb' start (len' + len) :=
  BitVec.extractLsb'_append_extractLsb'_eq_extractLsb' rfl

@[simp] theorem byteAt_cons_zero : byteAt (b :: p) 0 = b := rfl
@[simp] theorem byteAt_cons_succ : byteAt (b :: p) (k + 1) = byteAt p k := rfl
@[simp] theorem halfAt_cons_succ : halfAt (b :: p) (k + 1) = halfAt p k := rfl
@[simp] theorem quadAt_cons_succ : quadAt (b :: p) (k + 1) = quadAt p k := rfl

@[simp] theorem byteAt_half_append : byteAt (bytesOfHalf x ++ p) (k + 2) = byteAt p k := rfl
@[simp] theorem halfAt_half_append : halfAt (bytesOfHalf x ++ p) (k + 2) = halfAt p k := rfl
@[simp] theorem quadAt_half_append : quadAt (bytesOfHalf x ++ p) (k + 2) = quadAt p k := rfl
@[simp] theorem drop_half_append : (bytesOfHalf x ++ p).drop (k + 2) = p.drop k := rfl

@[simp] theorem byteAt_quad_append : byteAt (bytesOfQuad y ++ p) (k + 4) = byteAt p k := rfl
@[simp] theorem quadAt_quad_append : quadAt (bytesOfQuad y ++ p) (k + 4) = quadAt p k := rfl

/-- A two-byte field, low byte first. -/
@[simp] theorem halfAt_half_append_zero : halfAt (bytesOfHalf x ++ p) 0 = x :=
  (bits_append x 0 8 8).trans BitVec.extractLsb'_eq_self

@[simp] theorem halfAt_half : halfAt (bytesOfHalf x) 0 = x := halfAt_half_append_zero x []

/-- A four-byte field, low byte first. -/
@[simp] theorem quadAt_quad_append_zero : quadAt (bytesOfQuad y ++ p) 0 = y := by
  change (y.extractLsb' 24 8 ++ y.extractLsb' 16 8 : Half) ++ (y.extractLsb' 8 8 ++ y.extractLsb' 0 8 : Half) = y
  rw [bits_append y 16 8 8, bits_append y 0 8 8, bits_append y 0 16 16, BitVec.extractLsb'_eq_self]

@[simp] theorem quadAt_quad : quadAt (bytesOfQuad y) 0 = y := quadAt_quad_append_zero y []

end

/-! ### Lists of fields (R2, R65) -/

theorem halvesOf_bytesOfHalves (xs : List Half) : halvesOf (bytesOfHalves xs) = xs := by
  induction xs with
  | nil => rfl
  | cons x xs ih => exact congrArg₂ List.cons (halfAt_half x) ih

/-- The eight bytes of a record make it up (section 4.3). -/
theorem recordBytes_append (r : BitVec 64) :
    (recordByte r 7 ++ recordByte r 6 ++ recordByte r 5 ++ recordByte r 4 ++ recordByte r 3 ++ recordByte r 2 ++
      recordByte r 1 ++ recordByte r 0 : BitVec 64) = r := by
  unfold recordByte
  rw [bits_append r 48 8 8, bits_append r 40 8 16, bits_append r 32 8 24, bits_append r 24 8 32,
    bits_append r 16 8 40, bits_append r 8 8 48, bits_append r 0 8 56, BitVec.extractLsb'_eq_self]

theorem recordsOf_bytesOfRecord (rs : List (BitVec 64)) : recordsOf (rs.flatMap bytesOfRecord) = rs := by
  induction rs with
  | nil => rfl
  | cons r rs ih => exact congrArg₂ List.cons (recordBytes_append r) ih

/-! ### Requests (R202, R207) -/

/-- R207: the fields of a request's frame are the operands it was made of. -/
theorem requestOf_encodeRequest {i : Instr} {f : Frame} (h : encodeRequest i = some f) :
    requestOf f.kind f.tag f.payload = some i := by
  cases i <;> simp only [encodeRequest, Option.some.injEq, reduceCtorEq] at h <;> subst h <;>
    simp [requestOf, halvesOf_bytesOfHalves, recordsOf_bytesOfRecord]

/-- R207: the payload of a well-formed request has the length of its kind. -/
theorem payloadLength_encodeRequest {i : Instr} {f : Frame} (hw : i.wellFormed = true)
    (h : encodeRequest i = some f) : payloadLength f.kind f.payload = some f.payload.length := by
  cases i
  case writePage => exact Laws.RequestLength.writePage _ _ _ _ hw f h
  case setPartition => exact Laws.RequestLength.setPartition _ _ hw f h
  case writeSteps => exact Laws.RequestLength.writeSteps _ _ _ _ _ hw f h
  case setRoute => exact Laws.RequestLength.setRoute _ _ _ _ _ hw f h
  all_goals cases h
  all_goals exact Laws.RequestLength.of_fixed (fun _ => rfl) rfl _ rfl

/-! ### What CL finds in a frame (R202) -/

section
variable {f : Frame} {i : Instr} {n : Nat}

/-- A kind has fields where it has a length. -/
theorem requestOf_isSome (kind tag : Byte) (p : List Byte) :
    (requestOf kind tag p).isSome = (payloadLength kind p).isSome := by
  unfold requestOf payloadLength
  generalize kind.toNat = k
  split
  case h_44 => simp_all
  all_goals rfl

theorem decodeRequest_unknownKind (hn : payloadLength f.kind f.payload = none) :
    decodeRequest f = .unknownKind := by
  simp only [decodeRequest, hn]

theorem decodeRequest_badLength (hn : payloadLength f.kind f.payload = some n) (hlen : f.payload.length ≠ n) :
    decodeRequest f = .badLength := by
  have hsome := requestOf_isSome f.kind f.tag f.payload
  rw [hn, Option.isSome_some, Option.isSome_iff_exists] at hsome
  obtain ⟨i, hi⟩ := hsome
  simp only [decodeRequest, hn, hi, hlen, if_false]

/-- Reading the frame of a well-formed request gives the request back. -/
theorem decodeRequest_encodeRequest (hw : i.wellFormed = true) (h : encodeRequest i = some f) :
    decodeRequest f = .request i := by
  simp only [decodeRequest, payloadLength_encodeRequest hw h, requestOf_encodeRequest h, if_true]

end

end Sys2Proof.Machine

namespace Sys2Proof.Proofs
open Machine

/-- Settles O6: the length of the payload is that of its kind, and each field is read where it was written. -/
theorem requestFramesRoundTrip : Obligations.RequestFramesRoundTrip := by
  intro i f hw h
  exact decodeRequest_encodeRequest hw h

end Sys2Proof.Proofs
end

section
/-!
How a request reaches its block (R201, R202, R213, R215): the arrival of its frame in each state of the link, and the
handing on of the frame at the front of the queue.
-/
namespace Sys2Proof.Machine

/-! ### Places in the queues (R201, R203) -/

section
variable {l : Link} {f : Frame}

theorem Link.addLinkReply_room (h : l.linkReplies.length < Config.linkReplyPlaces) :
    l.addLinkReply f = { l with linkReplies := l.linkReplies ++ [f] } := if_pos h

theorem Link.addLinkReply_full (h : Config.linkReplyPlaces ≤ l.linkReplies.length) : l.addLinkReply f = l :=
  if_neg (Nat.not_lt.mpr h)

theorem Link.arrive_room (h : l.requests.length < Config.requestPlaces) :
    l.arrive f = { l with requests := l.requests ++ [f] } := if_pos h

theorem Link.arrive_full (h : Config.requestPlaces ≤ l.requests.length) :
    l.arrive f = l.addLinkReply (linkMade .linkFull f.tag) := if_neg (Nat.not_lt.mpr h)

/-- R202: frames are handed on only where none waits. -/
theorem Link.waits_iff : (l.ready && l.requests.isEmpty) = false ↔ l.ready = false ∨ l.requests ≠ [] := by
  rw [Bool.and_eq_false_iff, List.isEmpty_eq_false_iff]

end

/-! ### Arrival -/

section
variable {i : Instr} {f : Frame} {s : State} {take : State → Answer}

/-- R213: what standby does not discard. -/
theorem State.admitted_iff : (s.link.standby && !(f.kind == 0x05 && f.payload.isEmpty)) = false ↔
    s.link.standby = false ∨ f.wakes = true := by
  change (s.link.standby && !f.wakes) = false ↔ _
  rw [Bool.and_eq_false_iff, Bool.not_eq_false']

/-- R213: outside standby every frame arrives, and in standby a WAKE. -/
theorem State.arrive_admitted (h : s.link.standby = false ∨ f.wakes = true) :
    s.arrive f = { s with link := s.link.arrive f } :=
  if_neg (Bool.eq_false_iff.mp (State.admitted_iff.mpr h))

/-- A command that has a frame is a request, which a block owns. -/
theorem exec_encoded (hf : encodeRequest i = some f) (s : State) :
    ∃ take, takeOf i = some take ∧ exec i s = submit i take s := by
  have hsome := takeOf_isSome i
  rw [hf, Option.isSome_some, Option.isSome_iff_exists] at hsome
  obtain ⟨take, ht⟩ := hsome
  exact ⟨take, ht, exec_request ht s⟩

/-- R201: a request that may not be handed on at once arrives as its frame. -/
theorem submit_arrives (hf : encodeRequest i = some f) (hlive : s.inReset = false)
    (hadmitted : s.link.standby = false ∨ f.wakes = true) (hwaits : s.link.ready = false ∨ s.link.requests ≠ []) :
    submit i take s = .next ({ s with link := s.link.arrive f }).transmit := by
  unfold submit
  rw [hf, ← State.arrive_admitted hadmitted]
  refine (if_neg (Bool.eq_false_iff.mp hlive)).trans ?_
  refine (if_neg (Bool.eq_false_iff.mp (State.admitted_iff.mpr hadmitted))).trans ?_
  exact if_neg (Bool.eq_false_iff.mp (Link.waits_iff.mpr hwaits))

/-! ### Handing on (R202) -/

theorem exec_requestHandOn {rest : List Frame} (hlive : s.inReset = false) (hready : s.link.ready = true)
    (hq : s.link.requests = f :: rest) : exec .requestHandOn s =
      .next (State.handOn { s with link := { s.link with requests := rest } } f).transmit := by
  refine (event_live State.handOnNext hlive).trans ?_
  simp only [State.handOnNext, hready, hq]

theorem State.handOn_unknownKind (h : decodeRequest f = .unknownKind) :
    s.handOn f = s.rejectFrame .unknownKind f.tag := by
  simp only [State.handOn, h]

theorem State.handOn_badLength (h : decodeRequest f = .badLength) :
    s.handOn f = s.rejectFrame .badFrame f.tag := by
  simp only [State.handOn, h]

theorem State.handOn_request (h : decodeRequest f = .request i) (ht : takeOf i = some take) :
    s.handOn f = s.perform f take := by
  simp only [State.handOn, h, ht]

end

end Sys2Proof.Machine

namespace Sys2Proof.Proofs
open Machine

/-- Settles O4, in the order in which the link tests: the RESET line, standby, the places. -/
theorem requestsWaitTheirTurn : Obligations.RequestsWaitTheirTurn := by
  intro i f s hf
  obtain ⟨take, -, hexec⟩ := exec_encoded hf s
  rw [hexec]
  refine ⟨submit_inReset i take, fun _ hstandby hwakes => submit_standby take hf hstandby hwakes,
    fun hlive hadmitted hwaits => ?_⟩
  rw [submit_arrives hf hlive hadmitted hwaits]
  refine ⟨fun hroom => ?_, fun hfull hroom => ?_, fun hfull hlost => ?_⟩
  · rw [Link.arrive_room hroom]
  · rw [Link.arrive_full hfull, Link.addLinkReply_room hroom]
    rfl
  · rw [Link.arrive_full hfull, Link.addLinkReply_full hlost]

/-- Settles O5: what the link finds in the front frame decides; a well-formed request is found as it was sent. -/
theorem frontFramesAreHandedOn : Obligations.FrontFramesAreHandedOn := by
  refine ⟨fun i f s hf hw hlive hstandby hready hq => ?_, fun f rest s hlive hready hq => ?_⟩
  · obtain ⟨take, ht, hexec⟩ := exec_encoded hf { s with link := { s.link with requests := [] } }
    have hopen : State.open { s with link := { s.link with requests := [] } } = true := by
      have hempty : (!s.inReset && !s.link.standby && s.link.ready && true) = true := by
        rw [hlive, hstandby, hready]
        rfl
      exact hempty
    rw [hexec, submit_open take hf hw hopen, exec_requestHandOn hlive hready hq,
      State.handOn_request (decodeRequest_encodeRequest hw hf) ht, State.perform_transmit]
  · rw [exec_requestHandOn hlive hready hq]
    refine ⟨fun hkind => ?_, fun n hn hlen => ?_⟩
    · rw [State.handOn_unknownKind (decodeRequest_unknownKind hkind)]
      rfl
    · rw [State.handOn_badLength (decodeRequest_badLength hn hlen)]
      rfl

end Sys2Proof.Proofs
end

section
/-!
The receive assembly (R199, R200): what a character does in each of its states, what discards a frame in progress, and
the characters of a whole frame.
-/
namespace Sys2Proof.Machine

section
variable {s : State} {b kind tag low : Byte} {taken payload : List Byte} {n : Nat} {f : Frame}

/-! ### One character (R200) -/

@[simp] theorem State.receive_receiving (s : State) (r : Receive) : (s.receiving r).link.receive = r := rfl

@[simp] theorem State.receiving_receiving (s : State) (r r' : Receive) :
    (s.receiving r).receiving r' = s.receiving r' := rfl

theorem State.receiving_self {r : Receive} (h : s.link.receive = r) : s.receiving r = s := by
  subst h
  rfl

theorem State.failed_receiving (s : State) (r : Receive) (kind tag : Byte) :
    (s.receiving r).failed kind tag = (s.failed kind tag).receiving r := by
  unfold State.failed
  by_cases h : s.link.standby = true <;> simp [State.receiving, h]

/-- R206: a two-byte field arrives low byte first. -/
theorem twoBytes_half (x : Half) : twoBytes (x.extractLsb' 0 8) (x.extractLsb' 8 8) = x := halfAt_half x

/-- R200, R213: the link-made reply to a frame that fails, where the list has room. -/
theorem State.failFrame_room (h : s.link.linkReplies.length < Config.linkReplyPlaces) (st : Status) (tag : Byte) :
    s.failFrame st tag = s.failed (0xF0 + st.code) tag := by
  unfold State.failFrame State.failed
  rw [Link.addLinkReply_room h]
  rfl

theorem State.receiveByte_hunt (h : s.link.receive = .hunt) :
    s.receiveByte b = if b = 0xC5 then s.receiving (.header []) else s := by
  simp only [State.receiveByte, h]
  rfl

theorem State.receiveByte_header (h : s.link.receive = .header taken) :
    s.receiveByte b = s.takeHeader (taken ++ [b]) := by
  simp only [State.receiveByte, h]

/-- R199: before the high length byte the header only grows. -/
theorem State.takeHeader_short (h : taken.length < 4) : s.takeHeader taken = s.receiving (.header taken) := by
  unfold State.takeHeader
  split
  · simp at h
  · rfl

/-- R200: the length of the header tells what follows. -/
theorem State.takeHeader_full (high : Byte) : s.takeHeader [kind, tag, low, high] =
    if Config.maxPayload < (twoBytes low high).toNat then (s.failFrame .badFrame tag).receiving .discard
    else if twoBytes low high = 0 then s.receiving (.check kind tag [] none)
    else s.receiving (.payload kind tag (twoBytes low high).toNat []) := by
  have hzero : (twoBytes low high).toNat = 0 ↔ twoBytes low high = 0 := BitVec.toNat_inj (y := 0)
  simp only [← hzero]
  rfl

theorem State.receiveByte_payload (h : s.link.receive = .payload kind tag n taken) : s.receiveByte b =
    if taken.length + 1 < n then s.receiving (.payload kind tag n (taken ++ [b]))
    else s.receiving (.check kind tag (taken ++ [b]) none) := by
  simp only [State.receiveByte, h, List.length_append, List.length_singleton]
  rfl

theorem State.receiveByte_checkLow (h : s.link.receive = .check kind tag payload none) :
    s.receiveByte b = s.receiving (.check kind tag payload (some b)) := by
  simp only [State.receiveByte, h]
  rfl

theorem State.receiveByte_checkHigh (h : s.link.receive = .check kind tag payload (some low)) :
    s.receiveByte b = s.checkFrame ⟨kind, tag, payload⟩ (twoBytes low b) := by
  simp only [State.receiveByte, h]
  rfl

theorem State.receiveByte_discard (h : s.link.receive = .discard) : s.receiveByte b = s := by
  simp only [State.receiveByte, h]

theorem State.checkFrame_good {w : Half} (h : crc f.checkedBytes = w) :
    s.checkFrame f w = (s.receiving .hunt).arrive f := if_pos h

theorem State.checkFrame_bad {w : Half} (h : crc f.checkedBytes ≠ w) :
    s.checkFrame f w = (s.receiving .hunt).failFrame .badCheck f.tag := if_neg h

/-! ### Framing errors and gaps (R200) -/

/-- A frame in progress is discarded by a framing error and by a gap. -/
theorem State.discards_inProgress (hunt : s.link.receive ≠ .hunt) (discard : s.link.receive ≠ .discard) :
    s.framingError = s.discardPartial .discard ∧ s.linkGap = s.discardPartial .hunt := by
  unfold State.framingError State.linkGap
  split <;> simp_all

theorem State.discardPartial_tagged {r : Receive} (h : s.link.receive.tag? = some tag) :
    s.discardPartial r = (s.failFrame .badFrame tag).receiving r := by
  simp only [State.discardPartial, h]
  rfl

theorem State.discardPartial_untagged {r : Receive} (h : s.link.receive.tag? = none) :
    s.discardPartial r = s.receiving r := by
  simp only [State.discardPartial, h]
  rfl

/-! ### A whole frame (R199) -/

/-- The bytes of a payload, the last of them among them, bring the assembly to the check word. -/
theorem State.receive_payload : ∀ (xs taken : List Byte) (s : State), xs ≠ [] →
    s.link.receive = .payload kind tag (taken.length + xs.length) taken →
    xs.foldl State.receiveByte s = s.receiving (.check kind tag (taken ++ xs) none) := by
  intro xs
  induction xs with
  | nil => intro taken s hne; exact absurd rfl hne
  | cons x xs ih =>
    intro taken s _ h
    rw [List.foldl_cons, State.receiveByte_payload h]
    cases xs with
    | nil => simp
    | cons y ys =>
      rw [if_pos (by simp), ih (taken ++ [x]) _ (by simp) (by simp [State.receiving]; omega)]
      simp [State.receiving]

/-- R199: the header of a frame is taken as a whole. -/
theorem State.receive_header (h : s.link.receive = .header []) (high : Byte) :
    [kind, tag, low, high].foldl State.receiveByte s =
      (s.receiving (.header [kind, tag, low])).takeHeader [kind, tag, low, high] := by
  have htaken : [kind, tag, low].foldl State.receiveByte s = s.receiving (.header [kind, tag, low]) := by
    simp only [List.foldl_cons, List.foldl_nil]
    rw [State.receiveByte_header h, State.takeHeader_short (by simp),
      State.receiveByte_header (State.receive_receiving _ _), State.takeHeader_short (by simp),
      State.receiveByte_header (State.receive_receiving _ _), State.takeHeader_short (by simp)]
    rfl
  rw [show [kind, tag, low, high] = [kind, tag, low] ++ [high] from rfl, List.foldl_append, htaken,
    List.foldl_cons, List.foldl_nil, State.receiveByte_header (State.receive_receiving _ _)]

/-- R199: the header and the payload of a frame bring the assembly to the check word. -/
theorem State.receive_checkedBytes (hlen : f.payload.length ≤ Config.maxPayload)
    (h : s.link.receive = .header []) :
    f.checkedBytes.foldl State.receiveByte s = s.receiving (.check f.kind f.tag f.payload none) := by
  have hn : (BitVec.ofNat 16 f.payload.length).toNat = f.payload.length :=
    Nat.mod_eq_of_lt (hlen.trans_lt (by decide))
  rw [Frame.checkedBytes, List.foldl_append]
  refine (congrArg (f.payload.foldl _) (State.receive_header h _)).trans ?_
  rw [State.takeHeader_full, twoBytes_half, hn, if_neg (Nat.not_lt.mpr hlen), State.receiving_receiving,
    State.receiving_receiving]
  split
  case isTrue hempty =>
    have hnone : f.payload = [] := List.eq_nil_of_length_eq_zero (by rw [← hn, hempty]; rfl)
    rw [hnone]
    rfl
  case isFalse hsome =>
    refine State.receive_payload f.payload [] _ (fun hnone => hsome (by rw [hnone]; rfl)) ?_
    rw [List.length_nil, Nat.zero_add]
    rfl

/-- R199, R200: the characters of a frame are its arrival. -/
theorem State.receive_wire (hlen : f.payload.length ≤ Config.maxPayload) (h : s.link.receive = .hunt) :
    f.wire.foldl State.receiveByte s = s.arrive f := by
  rw [Frame.wire, List.cons_append, List.foldl_cons, State.receiveByte_hunt h, if_pos rfl, List.foldl_append,
    State.receive_checkedBytes hlen rfl, State.receiving_receiving]
  simp only [bytesOfHalf, List.foldl_cons, List.foldl_nil]
  rw [State.receiveByte_checkLow (State.receive_receiving _ _), State.receiveByte_checkHigh (State.receive_receiving _ _),
    twoBytes_half, State.checkFrame_good rfl, State.receiving_receiving, State.receiving_receiving,
    State.receiving_self h]

end

end Sys2Proof.Machine

namespace Sys2Proof.Proofs
open Machine

/-- Settles O8: the start character, the header, the payload by induction, and the check word. -/
theorem sentFramesArrive : Obligations.SentFramesArrive := by
  intro f s hlen h
  exact State.receive_wire hlen h

/-- Settles O9: the assembly's state decides what a character does; what discards a frame answers it where its tag
has arrived. -/
theorem charactersFramingErrorsAndGaps : Obligations.CharactersFramingErrorsAndGaps := by
  have hcharacter : ∀ (b : Byte) (s t : State), s.inReset = false → s.receiveByte b = t →
      exec (.receiveCharacter b true) s = .next t.transmit := fun b s t hlive ht => by
    rw [← ht]
    exact event_live (fun u => if true then u.receiveByte b else u.framingError) hlive
  have herror : ∀ (b : Byte) (s t u : State), s.inReset = false → s.framingError = t → s.linkGap = u →
      exec (.receiveCharacter b false) s = .next t.transmit ∧ exec .linkGapTimeout s = .next u.transmit :=
    fun b s t u hlive ht hu => by
      rw [← ht, ← hu]
      exact ⟨event_live (fun u => if false then u.receiveByte b else u.framingError) hlive,
        event_live State.linkGap hlive⟩
  refine ⟨fun b s hlive hroom => ?_, fun b s hlive hroom => ?_⟩
  · refine ⟨fun h => ?_, fun taken h hshort => ?_, fun kind tag low h => ?_, fun kind tag n taken h => ?_,
      fun kind tag payload h => ?_, fun kind tag payload low h hbad => ?_,
      fun kind tag payload low h hgood hstandby hplaces => ?_, fun h => ?_⟩
    · exact hcharacter b s _ hlive (State.receiveByte_hunt h)
    · refine hcharacter b s _ hlive ?_
      rw [State.receiveByte_header h, State.takeHeader_short (by simp; omega)]
    · refine hcharacter b s _ hlive ?_
      rw [State.receiveByte_header h]
      refine (State.takeHeader_full b).trans ?_
      rw [State.failFrame_room hroom]
      rfl
    · exact hcharacter b s _ hlive (State.receiveByte_payload h)
    · exact hcharacter b s _ hlive (State.receiveByte_checkLow h)
    · refine hcharacter b s _ hlive ?_
      rw [State.receiveByte_checkHigh h, State.checkFrame_bad hbad]
      exact (State.failFrame_room (s := s.receiving .hunt) hroom _ _).trans (s.failed_receiving _ _ _)
    · refine hcharacter b s _ hlive ?_
      rw [State.receiveByte_checkHigh h, State.checkFrame_good hgood,
        State.arrive_admitted (s := s.receiving .hunt) (.inl hstandby),
        Link.arrive_room (l := (s.receiving .hunt).link) hplaces]
      rfl
    · exact hcharacter b s _ hlive (State.receiveByte_discard h)
  · refine ⟨fun tag h => ?_, fun taken h hshort => ?_, fun h => ?_, fun h => ?_⟩
    · obtain ⟨herr, hgap⟩ := State.discards_inProgress (s := s) (fun hr => by rw [hr] at h; cases h)
        (fun hr => by rw [hr] at h; cases h)
      refine herror b s _ _ hlive ?_ ?_
      · rw [herr, State.discardPartial_tagged h, State.failFrame_room hroom]
        rfl
      · rw [hgap, State.discardPartial_tagged h, State.failFrame_room hroom]
        rfl
    · obtain ⟨herr, hgap⟩ := State.discards_inProgress (s := s) (by rw [h]; nofun) (by rw [h]; nofun)
      have htag : s.link.receive.tag? = none := by
        rw [h]
        match taken, hshort with
        | [], _ | [_], _ => rfl
      exact herror b s _ _ hlive (herr.trans (State.discardPartial_untagged htag))
        (hgap.trans (State.discardPartial_untagged htag))
    · refine herror b s _ _ hlive ?_ ?_ <;> simp only [State.framingError, State.linkGap, h]
    · refine herror b s _ _ hlive ?_ ?_ <;> simp only [State.framingError, State.linkGap, h]
      rfl

end Sys2Proof.Proofs
end

section
/-!
CL's own requests (R209, R211 to R214): when they are taken, and what they answer.
-/
namespace Sys2Proof.Machine

section
variable {s : State}

/-- R202: a link that hands a request on at once is not in standby. -/
theorem State.open_standby (h : s.open = true) : s.link.standby = false := by
  unfold State.open at h
  simp only [Bool.and_eq_true, Bool.not_eq_true'] at h
  obtain ⟨⟨⟨-, hstandby⟩, -⟩, -⟩ := h
  exact hstandby

theorem RunState.active_eq_false {r : RunState} : r.active = false ↔ r = .idle ∨ r = .faulted := by
  cases r <;> simp [RunState.active]

/-- R212: when ENTER STANDBY is taken. -/
theorem State.mayStandBy_iff : s.mayStandBy = true ↔
    (∀ c : Chan, (s.engine c).run = .idle ∨ (s.engine c).run = .faulted) ∧ s.importer.record = none ∧
      s.clock.state = .steady := by
  have hchannels : s.channels.toList.all (fun x => !x.engine.run.active) = true ↔
      ∀ c : Chan, (s.engine c).run = .idle ∨ (s.engine c).run = .faulted := by
    simp only [← RunState.active_eq_false, List.all_eq_true, Bool.not_eq_true', Vector.mem_toList_iff,
      Vector.mem_iff_getElem]
    constructor
    · exact fun h c => h _ ⟨c.val, c.isLt, rfl⟩
    · rintro h _ ⟨k, hk, rfl⟩
      exact h ⟨k, hk⟩
  simp only [State.mayStandBy, Bool.and_eq_true, hchannels, Option.isNone_iff_eq_none, decide_eq_true_eq, and_assoc]

theorem takeSetNotices_bad {mask : Byte} (h : mask.msb = true) : takeSetNotices mask s = refuse .range s := if_pos h

theorem takeSetNotices_good {mask : Byte} (h : mask.msb = false) :
    takeSetNotices mask s = answer .ok [mask] { s with link := { s.link with mask := mask } } :=
  if_neg (Bool.eq_false_iff.mp h)

theorem takeWake_awake (h : s.link.standby = false) : takeWake s = answer .ok [] s :=
  if_neg (Bool.eq_false_iff.mp h)

/-- R211: the identification, byte by byte. -/
theorem takeIdentify_eq (s : State) : takeIdentify s = answer .ok
    [0x45, 0x8A, 0x01, s.straps.linkRate.setWidth 8, if s.straps.libEn then 1 else 0,
      if s.straps.refDefault then 1 else 0,
      8, 0x00, 0x80, 0x00, 0x01, 0x00, 0x04, 16, 8, 0x00, 0x10, 6, 4, 4, 32, 0x08, 0x04] s := by
  unfold takeIdentify
  rw [byte1, BitVec.ofNat_toNat]
  rfl

/-- R206: the run states of the channels, a byte each. -/
theorem runStateBytes_eq (xs : List Channel) : (xs.flatMap fun x => byte1 x.engine.run.code) =
    xs.map fun x => BitVec.ofNat 8 x.engine.run.code := by
  induction xs with
  | nil => rfl
  | cons x xs ih => exact congrArg (List.cons _) ih

end

end Sys2Proof.Machine

namespace Sys2Proof.Proofs
open Machine

/-- Settles O10, request by request; each is handed on at once. -/
theorem linkRequestsAnswer : Obligations.LinkRequestsAnswer := by
  refine ⟨fun tag mask s ho => ⟨?_, ?_, ?_, ?_⟩, fun tag s ho => ⟨?_, ?_⟩⟩
  · rw [exec_open (take := takeSetNotices mask) rfl rfl rfl ho]
    split
    case isTrue hmask => rw [takeSetNotices_bad hmask]; rfl
    case isFalse hmask => rw [takeSetNotices_good (Bool.eq_false_iff.mpr hmask)]; rfl
  · rw [exec_open (take := takeEnterStandby) rfl rfl rfl ho]
    simp only [← State.mayStandBy_iff, takeEnterStandby]
    split <;> rfl
  · rw [exec_open (take := takeResetEngine) rfl rfl rfl ho]
    rfl
  · rw [exec_open (take := takeWake) rfl rfl rfl ho, takeWake_awake (State.open_standby ho)]
    rfl
  · rw [exec_open (take := takeIdentify) rfl rfl rfl ho]
    rw [takeIdentify_eq]
    rfl
  · rw [exec_open (take := takeReadDevice) rfl rfl rfl ho, takeReadDevice, runStateBytes_eq]
    rfl

end Sys2Proof.Proofs
end

section
/-!
Notices and the transmitter (R203, R209, R210), with the laws of the notice queue and of the transmitter's choice.
-/
namespace Sys2Proof.Proofs
open Machine

/-- Settles O11: the notice queue and the transmitter case by case, and the frame of each notice with the codes that its
fields take. -/
theorem noticesAndTheTransmitter : Obligations.NoticesAndTheTransmitter := by
  refine ⟨fun n s => ⟨fun h => ?_, fun h hfull => ?_, fun h hroom => ?_⟩, ⟨fun l => ?_, fun s hlive => ?_⟩,
    ?_⟩
  · rw [State.notify, Link.notify_withheld h]
  · rw [State.notify, Link.notify_full h hfull]
  · rw [State.notify, Link.notify_queued h hroom]
  · exact ⟨fun x hx => Link.transmit_busy hx, Link.transmit_linkReply, fun f n ns => Link.transmit_turn,
      fun f => Link.transmit_reply, fun n ns => Link.transmit_notice, Link.transmit_nothing⟩
  · rw [exec_frameSent hlive]
    refine ⟨fun h => ?_, fun h hawaits => ?_, fun n h => ?_⟩ <;> simp only [State.completeSending, h]
    simp only [State.afterReply, hawaits]
  · intro n lost bit fields
    cases n with
    | runEnd c cause i fault =>
      cases fault with
      | none => cases cause <;> exact ⟨rfl, rfl, rfl⟩
      | some f =>
        obtain ⟨_, _, handle, _, _⟩ := f
        cases handle <;> cases cause <;> exact ⟨rfl, rfl, rfl⟩
    | signal c code => exact ⟨rfl, rfl, rfl⟩
    | timer c => exact ⟨rfl, rfl, rfl⟩
    | importEnd h serial outcome =>
      cases outcome with
      | done w committed => exact ⟨rfl, rfl, rfl⟩
      | doneNotCommitted w refusal => exact ⟨rfl, rfl, rfl⟩
      | cancelled pages cause => cases cause <;> exact ⟨rfl, rfl, rfl⟩
    | damage h serial role k page => cases role <;> exact ⟨rfl, rfl, rfl⟩
    | freed serial h pages => exact ⟨rfl, rfl, rfl⟩
    | reference source cause => cases source <;> cases cause <;> exact ⟨rfl, rfl, rfl⟩

end Sys2Proof.Proofs
end

section
/-!
The host's queue (section 0.3, section 0.7, section 11.3): a step takes the command at its front, and every command
answers a next state with the queue that it found. Nearly all of the part's work leaves the queue with the rest of the
ground; the reference switches, the tap events, the hand-on of a request and the resets write the ground elsewhere and
are taken one by one.
-/
namespace Sys2Proof.Machine

variable {s : State}

/-- A command waits: the step carries it out on the state with the queue's rest. -/
theorem step_front {c : Instr} {rest : List Instr} (hq : s.pending = c :: rest) :
    step s = exec c { s with pending := rest } := by
  simp only [step, hq]

/-! ### The work that writes the ground -/

theorem State.pending_of_ground {t : State} (h : t.ground = s.ground) : t.pending = s.pending :=
  congrArg Prod.fst h

theorem State.pending_lockAcquired (s : State) : s.lockAcquired.pending = s.pending := by
  unfold State.lockAcquired
  split <;> rfl

theorem State.pending_lockTimeoutExpired (s : State) : s.lockTimeoutExpired.pending = s.pending := by
  unfold State.lockTimeoutExpired
  split <;> rfl

theorem State.pending_transferDone (s : State) : s.transferDone.pending = s.pending := by
  unfold State.transferDone
  split <;> rfl

theorem State.pending_referenceLost (s : State) : s.referenceLost.pending = s.pending := by
  unfold State.referenceLost
  split <;> rfl

theorem State.pending_leaveReset (s : State) : s.leaveReset.pending = s.pending := by
  unfold State.leaveReset
  split <;> rfl

theorem State.pending_tapEvent (s : State) (k : Fin 7) : (s.tapEvent k).pending = s.pending := by
  unfold State.tapEvent
  split
  · split
    · exact State.pending_of_ground (by simp)
    · exact State.pending_of_ground (s := s.divide k) (State.ground_tap _ k)
  · rfl

theorem State.pending_takeSetReference (s : State) (code : Byte) :
    (takeSetReference code s).1.pending = s.pending := by
  unfold takeSetReference
  split
  · rfl
  · split
    · rfl
    · simp only [answer]
      split
      · rfl
      · split <;> rfl

/-- What a block does with a request. -/
theorem State.pending_take {i : Instr} {take : State → Answer} (h : takeOf i = some take) (s : State) :
    (take s).1.pending = s.pending := by
  by_cases hi : ∃ tag code, i = .setReference tag code
  · obtain ⟨tag, code, rfl⟩ := hi
    obtain rfl := Option.some.inj h
    exact s.pending_takeSetReference code
  · exact State.pending_of_ground (State.ground_take h (fun tag code e => hi ⟨tag, code, e⟩) s)

theorem State.pending_handOn (s : State) (f : Frame) : (s.handOn f).pending = s.pending := by
  unfold State.handOn
  split
  · rfl
  · rfl
  · split
    · rename_i ht
      exact State.pending_take ht s
    · rfl

theorem State.pending_handOnNext (s : State) : s.handOnNext.pending = s.pending := by
  unfold State.handOnNext
  split
  · exact State.pending_handOn _ _
  · rfl

/-! ### Commands -/

/-- The outcome is a next state with the queue as it was in `s`. -/
def State.CarriesOut (s : State) (r : Result) : Prop := ∃ t, r = .next t ∧ t.pending = s.pending

theorem State.CarriesOut.next {t : State} (h : t.pending = s.pending) : s.CarriesOut (.next t) := ⟨t, rfl, h⟩

/-- An event is carried out where its work leaves the queue. -/
theorem State.CarriesOut.event {f : State → State} (hf : (f s).pending = s.pending) :
    s.CarriesOut (Machine.event f s) := by
  refine .next ?_
  split
  · rfl
  · exact hf

/-- An event that leaves the ground as it was. -/
theorem State.CarriesOut.quietEvent {f : State → State} (hf : (f s).ground = s.ground) :
    s.CarriesOut (Machine.event f s) := .event (State.pending_of_ground hf)

/-- Every request is carried out, whatever becomes of its frame. -/
theorem State.CarriesOut.request {i : Instr} {take : State → Answer} (ht : takeOf i = some take) :
    s.CarriesOut (Machine.exec i s) := by
  rw [exec_request ht]
  rcases submit_cases i take s with h | ⟨f, -, h | h | h⟩ <;> rw [h]
  · exact .next rfl
  · exact .next (State.pending_take ht s)
  · exact .next rfl
  · exact .next (State.pending_of_ground (s.ground_arrive f))

theorem State.carriesOut_exec (s : State) (i : Instr) : s.CarriesOut (exec i s) := by
  cases i
  case receiveCharacter =>
    change s.CarriesOut (execReceiveCharacter _ _ s)
    refine .quietEvent ?_
    split <;> simp
  case linkGapTimeout => exact .quietEvent s.ground_linkGap
  case requestHandOn => exact .event s.pending_handOnNext
  case frameSent => exact .quietEvent s.ground_completeSending
  case standbyBegin | engineResetPerformed =>
    refine .quietEvent ?_
    split <;> simp
  case powerOnReset =>
    refine .next ?_
    split
    · rfl
    · exact State.pending_leaveReset _
  case resetLine => exact .next rfl
  case resetLineRelease =>
    refine .next ?_
    split
    · exact State.pending_leaveReset _
    · rfl
  case guardEnableChange => exact .next rfl
  case pauseLineChange high =>
    refine .next (State.pending_of_ground ?_)
    rw [State.ground_transmit, State.ground_eachChannel _ fun c u => u.ground_followPauseLine c]
    rfl
  case triggerLineChange line high =>
    exact .next (State.pending_of_ground (s.ground_changeTriggerLine line high))
  case lockAcquired => exact .event s.pending_lockAcquired
  case lockTimeoutExpiry =>
    change s.CarriesOut (execLockTimeoutExpiry s)
    exact .event (State.pending_lockTimeoutExpired _)
  case referenceLost => exact .event s.pending_referenceLost
  case transferDone => exact .event s.pending_transferDone
  case holdRaise | holdDrop =>
    refine .quietEvent ?_
    split <;> simp
  case samplePeriod =>
    change s.CarriesOut (execSamplePeriod _ s)
    refine .quietEvent ?_
    split
    · rfl
    · simp only
      split <;> simp
  case timeBaseTap k => exact .event (s.pending_tapEvent k)
  case timerExpiry =>
    change s.CarriesOut (execTimerExpiry _ s)
    refine .event ?_
    split
    · exact s.pending_tapEvent _
    · rfl
  case walkIntervalExpiry =>
    refine .event ?_
    split
    · exact s.pending_tapEvent 3
    · rfl
  case operandChange =>
    change s.CarriesOut (execOperandChange _ s)
    exact .quietEvent (by simp)
  case importPageComplete =>
    change s.CarriesOut (execImportPageComplete _ _ s)
    refine .quietEvent ?_
    split
    · split <;> simp
    · rfl
  case scanReadComplete =>
    change s.CarriesOut (execScanReadComplete _ s)
    refine .quietEvent ?_
    split
    · split <;> simp
    · rfl
  case pageDecay =>
    refine .next (State.pending_of_ground ?_)
    rw [State.ground_transmit]
    split <;> simp
  all_goals exact .request rfl

end Sys2Proof.Machine

namespace Sys2Proof.Proofs
open Machine

/-- Settles O1: the queue's front and rest are those that the step takes apart. -/
theorem stepRunsTheFrontCommand : Obligations.StepRunsTheFrontCommand := by
  intro c rest s hq
  exact step_front hq

/-- Settles O3: a request ends as its frame does, an event as its work does, and neither touches the queue. -/
theorem everyCommandIsCarriedOut : Obligations.EveryCommandIsCarriedOut := by
  intro c s
  exact s.carriesOut_exec c

end Sys2Proof.Proofs
end

section
/-!
The reading requests (R42, R43, R54, R77, R130, R182, R194): the parts of their replies on the link, and what each
answers.
-/
namespace Sys2Proof.Machine

/-! ### Records on the link (R206, R208) -/

theorem Integrity.bytes_eq (g : Integrity) : g.bytes =
    match g with
    | .good => [0, 0, 0, 0, 0]
    | .damaged k m => 1 :: (byte2 k ++ byte2 m) := by
  cases g <;> rfl

section
variable {integrity : Integrity → List Byte} (hg : Integrity.bytes = integrity)
include hg

theorem Image.bytes_eq (i : Image) : i.bytes =
    byte2 i.serial ++ byte2 i.firstPage ++ byte2 i.pageCount ++ byte4 i.sampleLength ++
      [BitVec.ofNat 8 i.source.code, BitVec.ofNat 8 i.phase.code, BitVec.ofNat 8 i.refs] ++
      match i.phase with
      | .loading commit written =>
        (if commit then 1 else 0) :: (byte2 written.length ++ byte2 (lowestMissing 0 written) ++
          [0, 0, 0, 0, 0, 0, 0])
      | .ready g w | .retired g w => [0, 0, 0, 0, 0] ++ integrity g ++ bytesOfHalf w := by
  subst hg
  unfold Image.bytes
  cases i.phase <;> rfl

theorem RetiredEntry.bytes_eq (e : RetiredEntry) : e.bytes =
    byte2 e.image.serial ++ byte2 e.origin ++ byte2 e.image.firstPage ++ byte2 e.image.pageCount ++
      [BitVec.ofNat 8 e.image.refs] ++
      match e.image.phase with
      | .ready g w | .retired g w => integrity g ++ bytesOfHalf w
      | .loading _ _ => [0, 0, 0, 0, 0, 0, 0] := by
  subst hg
  unfold RetiredEntry.bytes
  cases e.image.phase <;> rfl

end

/-- R182: the pages that remain, of the import in flight. -/
theorem Importer.remaining_eq (m : Importer) :
    m.remaining = (m.record.map fun r => r.pageCount - r.nextPage).getD 0 := by
  unfold Importer.remaining
  cases m.record <;> rfl

/-- R119, R130: the trigger masks and latches of a channel, a byte each. -/
theorem conditionBytes_eq (x : Channel) :
    byte1 x.latches.routing.toNat ++ byte1 x.latches.trig.toNat ++ byteOfBool x.latches.soft ++
        byteOfBool x.timer.expired =
      [x.latches.routing.setWidth 8, x.latches.trig.setWidth 8, if x.latches.soft then 1 else 0,
        if x.timer.expired then 1 else 0] := by
  simp only [byte1, BitVec.ofNat_toNat]
  rfl

/-! ### The requests as commands -/

section
variable {s : State} {tag count : Byte} {h n first : Half} {c : Chan}

theorem exec_readHandle (ho : s.open = true) (hh : h.toNat ≤ 1023) : exec (.readHandle tag h) s =
    .next (s.withReply 0x16 tag (0x00 ::
      (optionalPart 25 ((s.handle h.toNat).current.map Image.bytes) ++
        optionalPart 25 ((s.handle h.toNat).incoming.map Image.bytes)))) := by
  rw [exec_open (take := takeReadHandle h) rfl rfl rfl ho, takeReadHandle, if_neg (Nat.not_lt.mpr hh)]
  rfl

theorem exec_readMap (ho : s.open = true) (hn : n.toNat ≤ s.free.length) : exec (.readMap tag n) s =
    .next (s.withReply 0x17 tag (0x00 ::
      (byte2 s.free.length ++ bytesOfHalf n ++
        countedList (((s.free.drop n.toNat).take 64).map fun e => byte2 e.first ++ byte2 e.count) ++
        countedList (s.retired.map RetiredEntry.bytes) ++
        byte2 (s.free.map Extent.count).sum ++ byte2 (s.liveImages.map Image.pageCount).sum))) := by
  rw [exec_open (take := takeReadMap n) rfl rfl rfl ho, takeReadMap, if_neg (Nat.not_lt.mpr hn)]
  rfl

theorem exec_readMap_range (ho : s.open = true) (hn : s.free.length < n.toNat) :
    exec (.readMap tag n) s = .next (s.withReply 0x17 tag [0x05]) := by
  rw [exec_open (take := takeReadMap n) rfl rfl rfl ho, takeReadMap, if_pos hn]
  rfl

theorem exec_readSteps (ho : s.open = true) : exec (.readSteps tag (BitVec.ofNat 8 c.val) first count) s =
    .next ((takeReadSteps (BitVec.ofNat 8 c.val) first count s).1.withReply 0x32 tag
      (takeReadSteps (BitVec.ofNat 8 c.val) first count s).2) := by
  rw [exec_open (take := takeReadSteps (BitVec.ofNat 8 c.val) first count) rfl rfl rfl ho]

theorem takeReadSteps_range (h : count.toNat = 0 ∨ 128 < count.toNat) :
    takeReadSteps (BitVec.ofNat 8 c.val) first count s = refuse .range s := by
  simp only [takeReadSteps, chanOfCode_ofNat, if_pos h]

theorem takeReadSteps_badWindow (h : ¬(count.toNat = 0 ∨ 128 < count.toNat))
    (hw : s.windowSize c < first.toNat + count.toNat) :
    takeReadSteps (BitVec.ofNat 8 c.val) first count s = refuse .badWindow s := by
  simp only [takeReadSteps, chanOfCode_ofNat, if_neg h, if_pos hw]

theorem takeReadSteps_within (h : ¬(count.toNat = 0 ∨ 128 < count.toNat))
    (hw : first.toNat + count.toNat ≤ s.windowSize c) :
    takeReadSteps (BitVec.ofNat 8 c.val) first count s =
      answer .ok (byte2 (s.windowStart c) ++ byte2 (s.windowSize c) ++ bytesOfHalf first ++ [count] ++
        (List.range count.toNat).flatMap fun k =>
          bytesOfRecord (s.stepAt (s.windowStart c + (first.toNat + k))).record) s := by
  simp only [takeReadSteps, chanOfCode_ofNat, if_neg h, if_neg (Nat.not_lt.mpr hw)]
  rfl

end

end Sys2Proof.Machine

namespace Sys2Proof.Proofs
open Machine

/-- Settles O41, request by request: the reply's parts are those of its layout; then what the lowest missing page
is, and the codes. -/
theorem readsReportTheState : Obligations.ReadsReportTheState := by
  refine ⟨?_, fun written k hw hk hbelow => lowestMissing_eq written 0 k hw (fun _ _ => Nat.zero_le _) (Nat.zero_le _) hk
      fun j _ => hbelow j,
    rfl, fun _ _ _ _ => rfl, rfl, rfl, rfl⟩
  intro tag count h n first c s ho bit integrity image retired
  have hintegrity : Integrity.bytes = integrity := funext Integrity.bytes_eq
  have himage : Image.bytes = image := funext (Image.bytes_eq hintegrity)
  have hretired : RetiredEntry.bytes = retired := funext (RetiredEntry.bytes_eq hintegrity)
  refine ⟨fun hh => himage ▸ exec_readHandle ho hh, fun hn => hretired ▸ exec_readMap ho hn,
    exec_readMap_range ho, ?_, ?_, ?_, ?_, fun hcount => ?_, fun hmin hmax hwindow => ?_,
    fun hmin hmax hwindow => ?_⟩
  · rw [exec_open (take := takeReadGuards) rfl rfl rfl ho, takeReadGuards, List.append_assoc]
    rfl
  · rw [exec_open (take := takeReadImport) rfl rfl rfl ho, takeReadImport, Importer.remaining_eq]
    rfl
  · rw [exec_open (take := takeReadWalk) rfl rfl rfl ho, takeReadWalk]
    rfl
  · rw [exec_open (take := takeReadConditions) rfl rfl rfl ho, takeReadConditions, funext conditionBytes_eq]
    rfl
  · rw [exec_readSteps ho, takeReadSteps_range hcount]
    rfl
  · rw [exec_readSteps ho, takeReadSteps_badWindow (by omega) hwindow]
    rfl
  · rw [exec_readSteps ho, takeReadSteps_within (by omega) hwindow]
    rfl

end Sys2Proof.Proofs
end

section
/-!
Operands outside their ranges (R24, R42, R50, R51, R74, R77, R82, R102 to R104, R109 to R111, R120, R144, R168,
R169): each request whose number, mask or code names nothing is refused, whatever its other operands are.
-/
namespace Sys2Proof.Machine

/-! ### Numbers and codes that name nothing (R206) -/

theorem chanOfCode_eq_none {n : Byte} (h : 7 < n.toNat) : chanOfCode n = none := dif_neg (by omega)

/-- A channel number byte names none of the channels, or it is the byte of one. -/
theorem chanOfCode_cases (n : Byte) : chanOfCode n = none ∨ ∃ c : Chan, n = BitVec.ofNat 8 c.val := by
  by_cases h : 7 < n.toNat
  · exact .inl (chanOfCode_eq_none h)
  · exact .inr ⟨⟨n.toNat, by omega⟩, by simp⟩

theorem DamagePolicy.ofCode_eq_none {b : Byte} : DamagePolicy.ofCode b = none ↔ 2 < b.toNat := by
  revert b
  decide

/-- R67: a condition code above 15 names no condition. -/
theorem Condition.ofCode_eq_none {k : Nat} {negated : Bool} (h : 15 < k) : Condition.ofCode k negated = none := by
  rw [Condition.ofCode, Operand.ofCode_eq_none.mpr h]
  rfl

/-! ### The refusals -/

section
variable {s : State} {n mask mode code sense policy routing enable present : Byte} {first : Half}
  {edges : List Byte}

theorem takeRun_range (h : mask = 0 ∨ 15 < code.toNat ∨ 1 < sense.toNat) :
    takeRun mask first code sense s = answer .range [0] s := by
  unfold takeRun
  split
  · next hcode hsense =>
    refine if_pos (h.resolve_right ?_)
    rintro (hc | hs)
    · cases (Condition.ofCode_eq_none hc).symm.trans hcode
    · cases (boolOfCode_eq_none.mpr hs).symm.trans hsense
  · rfl

theorem takeStop_range (h : mask = 0 ∨ 1 < mode.toNat) : takeStop mask mode s = refuse .range s := by
  unfold takeStop
  split
  · rfl
  · next hmode =>
    refine if_pos (h.resolve_right fun hm => ?_)
    cases (boolOfCode_eq_none.mpr hm).symm.trans hmode

theorem takeSetPolicy_range
    (h : chanOfCode n = none ∨ 2 < policy.toNat ∨ 1 < routing.toNat ∨ 1 < enable.toNat) :
    takeSetPolicy n policy routing enable s = refuse .range s := by
  unfold takeSetPolicy
  split
  · next hn hp hr he =>
    rcases h with h | h | h | h
    · cases h.symm.trans hn
    · cases (DamagePolicy.ofCode_eq_none.mpr h).symm.trans hp
    · cases (boolOfCode_eq_none.mpr h).symm.trans hr
    · cases (boolOfCode_eq_none.mpr h).symm.trans he
  · rfl

/-- R120: SET ROUTE of a channel number that names none, or with an operand out of range. -/
theorem takeSetRoute_refused (h : chanOfCode n = none ∨
      16 ≤ routing.toNat ∨ 1 < present.toNat ∨ (present = 1 ∧ edgesOf edges = none)) :
    takeSetRoute n routing present edges s = refuse .range s := by
  obtain hn | ⟨c, rfl⟩ := chanOfCode_cases n
  · rw [takeSetRoute, hn]
  · exact takeSetRoute_range (h.resolve_left (by rw [chanOfCode_ofNat]; nofun))

end

/-- A request that its block refuses with RANGE: the status alone in the reply, and nothing else changes. -/
theorem exec_range {s : State} {i : Instr} {kind tag : Byte} {payload : List Byte} (take : State → Answer)
    (h : takeOf i = some take) (hf : encodeRequest i = some ⟨kind, tag, payload⟩) (hw : i.wellFormed = true)
    (ho : s.open = true) (ht : take s = refuse .range s) : exec i s = .next (s.withReply kind tag [0x05]) := by
  rw [exec_open h hf hw ho, ht]
  rfl

end Sys2Proof.Machine

namespace Sys2Proof.Proofs
open Machine

/-- Settles O7, request by request: what names nothing is found before anything else is tested. -/
theorem operandsOutOfRangeAreRefused : Obligations.OperandsOutOfRangeAreRefused := by
  intro tag n x y z count h first last g d edges records s ho hedges hrecords
  refine ⟨fun hh => ⟨?_, ?_, ?_, ?_, ?_⟩, fun hn => ?_, fun hrun => ?_, fun hstop => ?_, ?_, ?_, fun hpolicy => ?_,
    fun hedge => ?_, fun hrouting => ?_⟩
  · exact exec_range (takeFinishImage h) rfl rfl rfl ho (if_pos hh)
  · exact exec_range (takeCommit h) rfl rfl rfl ho (if_pos hh)
  · exact exec_range (takeDropIncoming h) rfl rfl rfl ho (if_pos hh)
  · exact exec_range (takeReleaseHandle h) rfl rfl rfl ho (if_pos hh)
  · exact exec_range (takeReadHandle h) rfl rfl rfl ho (if_pos hh)
  · have hslot : ¬n.toNat < 8 := by omega
    have hnone := chanOfCode_eq_none hn
    refine ⟨exec_setGuard ho (dif_neg hslot), exec_clearGuard ho (dif_neg hslot), ?_, ?_, ?_, ?_, ?_, ?_, ?_, ?_, ?_⟩
    · rw [exec_writeSteps n ho hrecords, takeWriteSteps, hnone]
      rfl
    · exact exec_range (takeReadSteps n first count) rfl rfl rfl ho (by rw [takeReadSteps, hnone])
    · exact exec_range (takeReadChannel n) rfl rfl rfl ho (by rw [takeReadChannel, hnone])
    · exact exec_range (takeClearFault n) rfl rfl rfl ho (by rw [takeClearFault, hnone])
    · exact exec_range (takeSetPolicy n x y z) rfl rfl rfl ho (takeSetPolicy_range (.inl hnone))
    · exact exec_setRoute ho hedges (takeSetRoute_refused (.inl hnone))
    · rw [exec_open (take := takeSetRate n d) rfl rfl rfl ho, takeSetRate, hnone]
      rfl
    · exact exec_range (takeSetOutput n g.gain g.offset g.clampLow g.clampHigh g.rest x y z) rfl rfl rfl ho
        (by rw [takeSetOutput, hnone])
    · exact exec_range (takeReadOutput n) rfl rfl rfl ho (by rw [takeReadOutput, hnone])
  · rw [exec_run ho, takeRun_range hrun]
    rfl
  · exact exec_range (takeStop n z) rfl rfl rfl ho (takeStop_range hstop)
  · exact exec_range (takePause 0) rfl rfl rfl ho rfl
  · exact exec_range (takeResume 0) rfl rfl rfl ho rfl
  · exact exec_range (takeSetPolicy n x y z) rfl rfl rfl ho (takeSetPolicy_range (.inr hpolicy))
  · exact exec_setRoute ho hedges
      (takeSetRoute_refused (.inr (.inr (.inr ⟨rfl, edgesOf_eq_none hedges hedge⟩))))
  · exact exec_setRoute ho hedges (takeSetRoute_refused (.inr (hrouting.imp_right .inl)))

end Sys2Proof.Proofs
end

section
/-!
COMMIT (R25 to R27), DROP INCOMING (R29, R30) and RELEASE HANDLE (R31, R32): the tests on a current image that is to
leave its handle, what becomes of it, how an incoming image is discarded, and what each request answers.
-/
namespace Sys2Proof.Machine

/-! ### A current image that leaves its handle (R25, R26, R31, R32) -/

section
variable {s : State} {old : Image} {h : Nat}

theorem State.mayLeave_guarded (hk : s.guards.keeps old.firstPage old.pageCount = true) :
    s.mayLeave old = some .guarded := if_pos hk

theorem State.mayLeave_retireFull (hk : ¬s.guards.keeps old.firstPage old.pageCount = true) (hr : 0 < old.refs)
    (hfull : Config.retiredPlaces ≤ s.retired.length) : s.mayLeave old = some .retireFull :=
  (if_neg hk).trans (if_pos ⟨hr, hfull⟩)

theorem State.mayLeave_none (hk : ¬s.guards.keeps old.firstPage old.pageCount = true)
    (h : old.refs = 0 ∨ s.retired.length < Config.retiredPlaces) : s.mayLeave old = none :=
  (if_neg hk).trans (if_neg (by omega))

theorem State.dispose_freed (hr : old.refs = 0) :
    s.dispose h old = (.freed, (s.returnPages old).notify (.freed old.serial h old.pageCount)) := if_pos hr

theorem State.dispose_retired {g : Integrity} {w : Half} (hr : 0 < old.refs) (hp : old.phase = .ready g w) :
    s.dispose h old =
      (.retired, { s with retired := s.retired ++ [⟨h, { old with phase := .retired g w }⟩] }) := by
  rw [State.dispose, if_neg (by omega), Image.asRetired, hp]

end

/-! ### COMMIT (R25 to R27) -/

section
variable {s u : State} {tag : Byte} {h : Half} {i : Image} {p : List Byte}

theorem exec_commit (ho : s.open = true) (ht : takeCommit h s = (u, p)) :
    exec (.commit tag h) s = .next (u.withReply 0x13 tag p) := by
  rw [exec_open (take := takeCommit h) rfl rfl rfl ho, ht]

theorem takeCommit_noIncoming (hh : h.toNat ≤ 1023) (hin : (s.handle h.toNat).incoming = none) :
    takeCommit h s = refuse .noIncoming s := by
  rw [takeCommit, if_neg (by omega), hin]

theorem takeCommit_notReady {c : Bool} {w : List Nat} (hh : h.toNat ≤ 1023)
    (hin : (s.handle h.toNat).incoming = some i) (hp : i.phase = .loading c w) :
    takeCommit h s = refuse .notReady s := by
  simp only [takeCommit, if_neg (Nat.not_lt.mpr hh), hin, hp]

section
variable {g : Integrity} {w : Half} (hh : h.toNat ≤ 1023) (hin : (s.handle h.toNat).incoming = some i)
  (hp : i.phase = .ready g w)
include hh hin hp

/-- R25: with a READY incoming image the commit attempt decides. -/
theorem takeCommit_ready : takeCommit h s =
    match s.commitAttempt h.toNat i with
    | .error refusal => refuse refusal s
    | .ok (former, u) => answer .ok (byte2 i.serial ++ dispositionPart former) u := by
  simp only [takeCommit, if_neg (Nat.not_lt.mpr hh), hin, hp] <;> rfl

theorem takeCommit_binds (hcur : (s.handle h.toNat).current = none) : takeCommit h s =
    answer .ok (byte2 i.serial ++ dispositionPart none) (s.setHandle h.toNat ⟨some i, none⟩) := by
  simp only [takeCommit_ready hh hin hp, State.commitAttempt, hcur]

variable {old : Image} (hcur : (s.handle h.toNat).current = some old)
include hcur

theorem takeCommit_refused {st : Status} (hm : s.mayLeave old = some st) : takeCommit h s = refuse st s := by
  simp only [takeCommit_ready hh hin hp, State.commitAttempt, hcur, hm]

theorem takeCommit_replaces (hm : s.mayLeave old = none) {d : Disposition}
    (hd : (s.setHandle h.toNat ⟨some i, none⟩).dispose h.toNat old = (d, u)) : takeCommit h s =
    answer .ok (byte2 i.serial ++ dispositionPart (some (old.serial, d))) u := by
  simp only [takeCommit_ready hh hin hp, State.commitAttempt, hcur, hm, hd]

end

end

/-! ### Incoming images that are discarded (R29, R30, R180) -/

section
variable {s : State} {h : Nat} {i : Image} {r : ImportRecord}

theorem State.discardIncoming_some (hin : (s.handle h).incoming = some i) :
    s.discardIncoming h = (s.setHandle h ⟨(s.handle h).current, none⟩).returnPages i := by
  simp only [State.discardIncoming, hin]

theorem State.dropIncoming_other (cause : CancelCause) (hr : ∀ r, s.importer.record = some r → r.handle ≠ h) :
    s.dropIncoming h cause = (false, s.discardIncoming h) := by
  refine if_neg ?_
  unfold State.importFills
  split
  · exact Bool.false_ne_true
  · next r hrecord => simpa using hr r hrecord

/-- R30, R180: the import that fills the image ends before the image goes. -/
theorem State.dropIncoming_filling (cause : CancelCause) (hr : s.importer.record = some r) (hh : r.handle = h) :
    s.dropIncoming h cause =
      (true, (s.importEnded r (.cancelled r.nextPage cause)).discardIncoming h) := by
  subst hh
  simp only [State.dropIncoming, State.importFills, State.cancelImport, hr, BEq.rfl, if_true]
  rfl

/-- R29, R32: what the release of a handle writes once the pages of its incoming image have gone back. -/
theorem State.setHandle_returnPages_empty {u : State} (r : HandleRecord) (hr : Sparse.rising u.handles = true) :
    ((u.setHandle h r).returnPages i).setHandle h ⟨none, none⟩ = (u.setHandle h ⟨none, none⟩).returnPages i :=
  congrArg (State.returnPages · i) (State.setHandle_setHandle_empty h r hr)

theorem State.releaseIncoming_none (hin : (s.handle h).incoming = none) :
    s.releaseIncoming h = ([0, 0, 0, 0], s) := by
  simp only [State.releaseIncoming, hin]
  rfl

theorem State.releaseIncoming_some {flag : Bool} {u : State} (hin : (s.handle h).incoming = some i)
    (hd : s.dropIncoming h .release = (flag, u)) :
    s.releaseIncoming h = (1 :: (byte2 i.serial ++ byteOfBool flag), u) := by
  simp only [State.releaseIncoming, hin, hd]
  rfl

end

/-! ### DROP INCOMING and RELEASE HANDLE (R29 to R32) -/

section
variable {s u : State} {tag : Byte} {h : Half} {p : List Byte}

theorem exec_dropIncoming (ho : s.open = true) (ht : takeDropIncoming h s = (u, p)) :
    exec (.dropIncoming tag h) s = .next (u.withReply 0x14 tag p) := by
  rw [exec_open (take := takeDropIncoming h) rfl rfl rfl ho, ht]

theorem exec_releaseHandle (ho : s.open = true) (ht : takeReleaseHandle h s = (u, p)) :
    exec (.releaseHandle tag h) s = .next (u.withReply 0x15 tag p) := by
  rw [exec_open (take := takeReleaseHandle h) rfl rfl rfl ho, ht]

section
variable (hh : h.toNat ≤ 1023)
include hh

theorem takeDropIncoming_none (hin : (s.handle h.toNat).incoming = none) :
    takeDropIncoming h s = refuse .noIncoming s := by
  rw [takeDropIncoming, if_neg (by omega), hin]

theorem takeDropIncoming_some {i : Image} {flag : Bool} (hin : (s.handle h.toNat).incoming = some i)
    (hd : s.dropIncoming h.toNat .drop = (flag, u)) :
    takeDropIncoming h s = answer .ok (byte2 i.serial ++ byteOfBool flag) u := by
  simp only [takeDropIncoming, if_neg (Nat.not_lt.mpr hh), hin, hd]

theorem takeReleaseHandle_empty (hr : s.handle h.toNat = ⟨none, none⟩) :
    takeReleaseHandle h s = refuse .noHandle s := by
  rw [takeReleaseHandle, if_neg (by omega), hr]

theorem takeReleaseHandle_incoming {i : Image} (hcur : (s.handle h.toNat).current = none)
    (hin : (s.handle h.toNat).incoming = some i) (hr : s.releaseIncoming h.toNat = (p, u)) :
    takeReleaseHandle h s = answer .ok (p ++ [0, 0, 0, 0]) u := by
  simp only [takeReleaseHandle, if_neg (Nat.not_lt.mpr hh), hcur, hin, hr]
  rfl

variable {old : Image} (hcur : (s.handle h.toNat).current = some old)
include hcur

theorem takeReleaseHandle_refused {st : Status} (hm : s.mayLeave old = some st) :
    takeReleaseHandle h s = refuse st s := by
  simp only [takeReleaseHandle, if_neg (Nat.not_lt.mpr hh), hcur, hm]

theorem takeReleaseHandle_leaves {v : State} {d : Disposition} (hm : s.mayLeave old = none)
    (hr : s.releaseIncoming h.toNat = (p, u))
    (hd : (u.setHandle h.toNat ⟨none, none⟩).dispose h.toNat old = (d, v)) :
    takeReleaseHandle h s = answer .ok (p ++ 1 :: (byte2 old.serial ++ byte1 d.code)) v := by
  simp only [takeReleaseHandle, if_neg (Nat.not_lt.mpr hh), hcur, hm, hr, HandleRecord.empty, hd]
  rfl

end

end

end Sys2Proof.Machine

namespace Sys2Proof.Proofs
open Machine

/-- Settles O39, by the tests on the old current image and what becomes of it. -/
theorem commitBindsTheIncomingImage : Obligations.CommitBindsTheIncomingImage := by
  intro tag h s ho hh kept
  have hkept : ∀ i : Image, s.guards.keeps i.firstPage i.pageCount = true ↔ kept i :=
    fun i => s.guards.keeps_iff i.firstPage i.pageCount
  refine ⟨fun hin => exec_commit ho (takeCommit_noIncoming hh hin),
    fun i c w hin hp => exec_commit ho (takeCommit_notReady hh hin hp), fun i g c hin hp => ?_⟩
  refine ⟨fun hcur => exec_commit ho (takeCommit_binds hh hin hp hcur), fun old hcur => ⟨fun hk => ?_,
    fun hk hr hfull => ?_, fun hk hr => ?_, fun g' c' hp' hk hr hroom => ?_⟩⟩
  · exact exec_commit ho (takeCommit_refused hh hin hp hcur (State.mayLeave_guarded ((hkept old).mpr hk)))
  · exact exec_commit ho
      (takeCommit_refused hh hin hp hcur (State.mayLeave_retireFull (mt (hkept old).mp hk) hr hfull))
  · exact exec_commit ho (takeCommit_replaces hh hin hp hcur
      (State.mayLeave_none (mt (hkept old).mp hk) (.inl hr)) (State.dispose_freed hr))
  · exact exec_commit ho (takeCommit_replaces hh hin hp hcur
      (State.mayLeave_none (mt (hkept old).mp hk) (.inr hroom)) (State.dispose_retired hr hp'))

/-- Settles O40: the import that fills the incoming image ends first, then the image goes, then the current one. -/
theorem imagesAreDroppedAndReleased : Obligations.ImagesAreDroppedAndReleased := by
  intro tag h s ho hh kept
  have hkept : ∀ i : Image, s.guards.keeps i.firstPage i.pageCount = true ↔ kept i :=
    fun i => s.guards.keeps_iff i.firstPage i.pageCount
  refine ⟨fun hin => exec_dropIncoming ho (takeDropIncoming_none hh hin), fun i hin hr => ?_,
    fun i r hin hr hrh => ?_, fun hr => exec_releaseHandle ho (takeReleaseHandle_empty hh hr),
    fun old hcur hk => ?_, fun old hcur hk hr hfull => ?_, fun old hold hk hr => ?_,
    fun old g c hold hp hk hr hroom => ?_, ?_⟩
  · rw [exec_dropIncoming ho (takeDropIncoming_some hh hin (State.dropIncoming_other .drop hr)),
      State.discardIncoming_some hin]
    rfl
  · rw [exec_dropIncoming ho (takeDropIncoming_some hh hin (State.dropIncoming_filling .drop hr hrh)),
      State.discardIncoming_some (s := s.importEnded r _) hin, ← hrh]
    rfl
  · exact exec_releaseHandle ho
      (takeReleaseHandle_refused hh hcur (State.mayLeave_guarded ((hkept old).mpr hk)))
  · exact exec_releaseHandle ho
      (takeReleaseHandle_refused hh hcur (State.mayLeave_retireFull (mt (hkept old).mp hk) hr hfull))
  · exact exec_releaseHandle ho (takeReleaseHandle_leaves hh (congrArg HandleRecord.current hold)
      (State.mayLeave_none (mt (hkept old).mp hk) (.inl hr))
      (State.releaseIncoming_none (congrArg HandleRecord.incoming hold)) (State.dispose_freed hr))
  · exact exec_releaseHandle ho (takeReleaseHandle_leaves hh (congrArg HandleRecord.current hold)
      (State.mayLeave_none (mt (hkept old).mp hk) (.inr hroom))
      (State.releaseIncoming_none (congrArg HandleRecord.incoming hold)) (State.dispose_retired hr hp))
  · intro i flag u hin hu v discarded
    have hdrop : s.dropIncoming h.toNat .release =
        (flag, (u.setHandle h.toNat ⟨(s.handle h.toNat).current, none⟩).returnPages i) := by
      obtain ⟨rfl, hr, rfl⟩ | ⟨rfl, r, hr, hrh, rfl⟩ := hu
      · rw [State.dropIncoming_other .release hr, State.discardIncoming_some hin]
      · rw [State.dropIncoming_filling .release hr hrh, State.discardIncoming_some (s := s.importEnded r _) hin, ← hrh]
        rfl
    have hsame : u.free = s.free ∧ u.handles = s.handles ∧ u.retired = s.retired := by
      obtain ⟨-, -, rfl⟩ | ⟨-, r, -, -, rfl⟩ := hu <;> exact ⟨rfl, rfl, rfl⟩
    obtain ⟨hfree, hhandles, hretired⟩ := hsame
    have hv : (u.setHandle h.toNat ⟨none, none⟩).returnPages i = v := by
      simp only [v, ← hfree]
      rfl
    have hdiscarded := State.releaseIncoming_some hin hdrop
    refine ⟨fun hcur => ?_, fun old hcur hrising hk => ?_⟩
    · rw [hcur, hv] at hdiscarded
      exact exec_releaseHandle ho (takeReleaseHandle_incoming hh hcur hin hdiscarded)
    · have hempties := (State.setHandle_returnPages_empty (i := i) (h := h.toNat)
        ⟨(s.handle h.toNat).current, none⟩ (hhandles ▸ hrising)).trans hv
      have hleaves {d : Disposition} {t : State} (hroom : old.refs = 0 ∨ s.retired.length < 16)
          (hd : v.dispose h.toNat old = (d, t)) :=
        exec_releaseHandle (tag := tag) ho (takeReleaseHandle_leaves hh hcur
          (State.mayLeave_none (mt (hkept old).mp hk) hroom) hdiscarded (hempties ▸ hd))
      refine ⟨fun hr => hleaves (.inl hr) (State.dispose_freed hr), fun g c hp hr hroom => ?_⟩
      rw [← hretired]
      exact hleaves (.inr hroom) (State.dispose_retired hr hp)

end Sys2Proof.Proofs
end

section
/-!
STOP (R102, R103, R108) at each named channel in ascending order, and the release of a reference (R35).
-/
namespace Sys2Proof.Machine

/-! ### The named channels in turn -/

/-- Actions in turn, each of which reads its own channel as it stood and leaves it at a value of its own. -/
theorem State.foldl_own {s : State} {f f' : State → Chan → State} (g : Chan → Channel) {l : List Chan}
    (hl : l.Nodup) (hf : ∀ c ∈ l, ∀ u : State, u.chan c = s.chan c →
      f u c = f' u c ∧ (f' u c).chan c = g c ∧ ∀ d, c ≠ d → (f' u c).chan d = u.chan d) :
    l.foldl f s = l.foldl f' s ∧ ∀ d, (l.foldl f' s).chan d = if d ∈ l then g d else s.chan d := by
  suffices h : ∀ u : State, (∀ d ∈ l, u.chan d = s.chan d) →
      l.foldl f u = l.foldl f' u ∧ ∀ d, (l.foldl f' u).chan d = if d ∈ l then g d else u.chan d from
    h s fun _ _ => rfl
  induction l with
  | nil => exact fun u _ => ⟨rfl, fun d => by simp⟩
  | cons c l ih =>
    intro u hu
    obtain ⟨hc, hl⟩ := List.nodup_cons.mp hl
    obtain ⟨hstep, hown, hothers⟩ := hf c (List.mem_cons_self ..) u (hu c (List.mem_cons_self ..))
    have hne : ∀ d ∈ l, c ≠ d := fun d hd e => hc (e ▸ hd)
    obtain ⟨hfold, hchan⟩ := ih hl (fun d hd => hf d (List.mem_cons_of_mem _ hd)) (f' u c) fun d hd =>
      (hothers d (hne d hd)).trans (hu d (List.mem_cons_of_mem _ hd))
    refine ⟨by rw [List.foldl_cons, List.foldl_cons, hstep, hfold], fun d => ?_⟩
    rw [List.foldl_cons, hchan]
    by_cases hd : d ∈ l
    · simp [hd]
    · by_cases he : d = c
      · subst he; simp [hd, hown]
      · simp [hd, he, hothers d fun e => he e.symm]

/-! ### STOP at one channel (R102, R103) -/

section
variable {s u : State} {c : Chan} {afterPlay : Bool}

/-- R102: the run of a channel that stood at `index` ends, its reference already released. -/
def State.ended (u : State) (c : Chan) (index : Nat) : State :=
  (u.setChan c (u.chan c).stopped).notify (.runEnd c .stopped index none)

/-- R102, R103: STOP at a channel of the state `s`. -/
def State.stopOne (s : State) (afterPlay : Bool) (u : State) (c : Chan) : State :=
  if (s.engine c).run.active then
    match s.playOf c with
    | none => u.ended c (s.engine c).index
    | some p =>
      if afterPlay then u.setEngine c { s.engine c with stopPending := true }
      else (u.release p.serial).ended c (s.engine c).index
  else u

/-- R103, R108: a channel as STOP leaves it. -/
def State.stoppedChan (s : State) (afterPlay : Bool) (c : Chan) : Channel :=
  if (s.engine c).run.active then
    if afterPlay && (s.playOf c).isSome then
      { s.chan c with engine := { s.engine c with stopPending := true } }
    else (s.chan c).stopped
  else s.chan c

/-- What STOP rests on at a channel: outside a run it holds neither a reference nor a pending stop, and in a PLAY step
it is in its program. -/
structure State.Stoppable (s : State) (afterPlay : Bool) (c : Chan) : Prop where
  rests : (s.engine c).run.active = false → (s.engine c).stopPending = false ∧ s.playOf c = none
  plays : afterPlay = true → (s.playOf c).isSome = true → (s.engine c).run.inProgram = true

theorem RunState.active_of_inProgram {r : RunState} (h : r.inProgram = true) : r.active = true := by
  revert h; cases r <;> decide

theorem State.playOf_congr (h : u.chan c = s.chan c) : u.playOf c = s.playOf c := by
  rw [State.playOf, State.engine, h]
  rfl

theorem State.stopNow_eq (h : u.chan c = s.chan c) : u.stopNow c = s.stopOne false u c := by
  have he : u.engine c = s.engine c := congrArg Channel.engine h
  unfold State.stopNow State.stopOne
  rw [he]
  refine ite_congr rfl (fun _ => ?_) fun _ => rfl
  rw [State.endRun, State.idleChannel_eq, he]
  cases hp : s.playOf c with
  | none => rw [State.endReference_none ((State.playOf_congr h).trans hp)]; rfl
  | some p => rw [State.endReference_some ((State.playOf_congr h).trans hp)]; rfl

/-- R103: outside a PLAY step AFTER_PLAY is NOW. -/
theorem State.stopAfterPlay_now (h : (u.engine c).run.inProgram = false ∨ u.playOf c = none) :
    u.stopAfterPlay c = u.stopNow c := by
  unfold State.playOf at h
  unfold State.stopAfterPlay
  split <;> simp_all [RunState.inProgram, Activity.playRecord?]

theorem State.stopAfterPlay_pending (hr : (u.engine c).run.inProgram = true) (hp : (u.playOf c).isSome = true) :
    u.stopAfterPlay c = u.setEngine c { u.engine c with stopPending := true } := by
  unfold State.playOf at hp
  unfold State.stopAfterPlay
  cases hrun : (u.engine c).run <;> cases hact : (u.engine c).activity <;>
    simp_all [RunState.inProgram, Activity.playRecord?]

theorem State.stopOne_of_none (h : s.playOf c = none) : s.stopOne afterPlay u c = s.stopOne false u c := by
  unfold State.stopOne
  rw [h]

theorem State.stopAfterPlay_eq (hs : s.Stoppable true c) (h : u.chan c = s.chan c) :
    u.stopAfterPlay c = s.stopOne true u c := by
  have he : u.engine c = s.engine c := congrArg Channel.engine h
  have hplay : u.playOf c = s.playOf c := State.playOf_congr h
  cases hp : s.playOf c with
  | none => rw [State.stopAfterPlay_now (.inr (hplay.trans hp)), State.stopNow_eq h, ← State.stopOne_of_none hp]
  | some p =>
    have hr := hs.plays rfl (by rw [hp]; rfl)
    have hactive := RunState.active_of_inProgram hr
    rw [State.stopAfterPlay_pending (he ▸ hr) (by rw [hplay, hp]; rfl), he]
    simp only [State.stopOne, hactive, hp, if_true]

theorem State.chan_stopOne_self (h : u.chan c = s.chan c) :
    (s.stopOne afterPlay u c).chan c = s.stoppedChan afterPlay c := by
  have he : u.engine c = s.engine c := congrArg Channel.engine h
  unfold State.stopOne State.stoppedChan
  refine (apply_ite (State.chan · c) ..).trans (ite_congr rfl (fun _ => ?_) fun _ => h)
  cases s.playOf c with
  | none => simp [State.ended, h]
  | some p => cases afterPlay <;> simp [State.ended, State.setEngine, h]

theorem State.chan_stopOne_ne {d : Chan} (hd : c ≠ d) : (s.stopOne afterPlay u c).chan d = u.chan d := by
  unfold State.stopOne
  split
  · split
    · simp [State.ended, State.chan_setChan_ne _ hd]
    · split <;> simp [State.ended, State.setEngine, State.chan_setChan_ne _ hd]
  · rfl

/-- A channel is IDLE after STOP where it was active, unless its stop is pending. -/
theorem State.stoppedChan_idle (h : (s.engine c).run.active = true) :
    decide ((s.stoppedChan afterPlay c).engine.run = .idle) = (!afterPlay || (s.playOf c).isNone) := by
  have hrun : (s.engine c).run ≠ .idle := fun e => by rw [e] at h; cases h
  unfold State.stoppedChan
  rw [if_pos h]
  cases afterPlay <;> cases s.playOf c <;> simp [Channel.stopped, hrun]

theorem State.stoppedChan_pending
    (h : (s.engine c).run.active = false → (s.engine c).stopPending = false ∧ s.playOf c = none) :
    (s.stoppedChan afterPlay c).engine.stopPending = (afterPlay && (s.playOf c).isSome) := by
  unfold State.stoppedChan
  by_cases ha : (s.engine c).run.active = true
  · cases afterPlay <;> cases s.playOf c <;> simp [ha, Channel.stopped]
  · obtain ⟨hpending, hplay⟩ := h (Bool.eq_false_iff.mpr ha)
    rw [if_neg ha, hplay, Option.isSome_none, Bool.and_false]
    exact hpending

/-- R102, R103: the reply names the channels stopped and those left with stop-pending set. -/
theorem takeStop_eq {mask mode : Byte} (hmode : boolOfCode mode = some afterPlay) (hmask : mask ≠ 0)
    (hs : ∀ c ∈ maskChannels mask, s.Stoppable afterPlay c) :
    takeStop mask mode s = answer .ok
      [maskOf fun c => mask.getLsbD c.val && (s.engine c).run.active && (!afterPlay || (s.playOf c).isNone),
       maskOf fun c => mask.getLsbD c.val && (afterPlay && (s.playOf c).isSome)]
      ((maskChannels mask).foldl (s.stopOne afterPlay) s) := by
  have step : ∀ c ∈ maskChannels mask, ∀ u : State, u.chan c = s.chan c →
      (if afterPlay then u.stopAfterPlay c else u.stopNow c) = s.stopOne afterPlay u c := fun c hc u hu => by
    cases afterPlay with
    | true => exact State.stopAfterPlay_eq (hs c hc) hu
    | false => exact State.stopNow_eq hu
  obtain ⟨hfold, hchan⟩ := State.foldl_own (s.stoppedChan afterPlay) (nodup_maskChannels mask) fun c hc u hu =>
    ⟨step c hc u hu, State.chan_stopOne_self hu, fun d hd => State.chan_stopOne_ne hd⟩
  have hnamed : ∀ c, mask.getLsbD c.val = true →
      ((maskChannels mask).foldl (s.stopOne afterPlay) s).engine c = (s.stoppedChan afterPlay c).engine :=
    fun c hc => congrArg Channel.engine ((hchan c).trans (if_pos ((mem_maskChannels mask c).mpr hc)))
  have hrests : ∀ c, mask.getLsbD c.val = true → (s.engine c).run.active = false →
      (s.engine c).stopPending = false ∧ s.playOf c = none := fun c hc =>
    (hs c ((mem_maskChannels mask c).mpr hc)).rests
  unfold takeStop stopModeOfCode
  simp only [hmode, if_neg hmask]
  rw [hfold]
  congr 2
  · refine congrArg maskOf (funext fun c => ?_)
    cases hc : mask.getLsbD c.val with
    | false => rfl
    | true =>
      cases ha : (s.engine c).run.active with
      | false => rfl
      | true =>
        rw [hnamed c hc]
        exact State.stoppedChan_idle ha
  · refine congrArg (fun m => [maskOf m]) (funext fun c => ?_)
    cases hc : mask.getLsbD c.val with
    | false => rfl
    | true => rw [hnamed c hc, State.stoppedChan_pending (hrests c hc)]

theorem exec_stop {tag mask mode : Byte} (ho : s.open = true) (hmode : boolOfCode mode = some afterPlay)
    (hmask : mask ≠ 0) (hs : ∀ c ∈ maskChannels mask, s.Stoppable afterPlay c) :
    exec (.stop tag mask mode) s = .next (((maskChannels mask).foldl (s.stopOne afterPlay) s).withReply 0x39 tag
      [0x00,
       maskOf fun c => mask.getLsbD c.val && (s.engine c).run.active && (!afterPlay || (s.playOf c).isNone),
       maskOf fun c => mask.getLsbD c.val && (afterPlay && (s.playOf c).isSome)]) := by
  rw [exec_open (take := takeStop mask mode) rfl rfl rfl ho, takeStop_eq hmode hmask hs]
  rfl

theorem maskChannels_onlyChan (c : Chan) : maskChannels (onlyChan c) = [c] := by
  revert c; decide

theorem onlyChan_ne_zero (c : Chan) : onlyChan c ≠ 0 := by
  revert c; decide

theorem maskOf_onlyChan (c : Chan) (p : Chan → Bool) :
    maskOf (fun d => (onlyChan c).getLsbD d.val && p d) = if p c then onlyChan c else 0 :=
  mask_ext fun d => by
    rw [getLsbD_maskOf, getLsbD_onlyChan]
    by_cases hd : d = c
    · subst hd; cases p d <;> simp [getLsbD_onlyChan]
    · cases p c with
      | false => simp [hd]
      | true => rw [if_pos rfl, getLsbD_onlyChan, decide_eq_false hd, Bool.false_and]

/-- STOP of one channel. -/
theorem exec_stop_one {tag mode : Byte} (ho : s.open = true) (hmode : boolOfCode mode = some afterPlay)
    (hs : s.Stoppable afterPlay c) :
    exec (.stop tag (onlyChan c) mode) s = .next ((s.stopOne afterPlay s c).withReply 0x39 tag
      [0x00,
       if (s.engine c).run.active && (!afterPlay || (s.playOf c).isNone) then onlyChan c else 0,
       if afterPlay && (s.playOf c).isSome then onlyChan c else 0]) := by
  rw [exec_stop ho hmode (onlyChan_ne_zero c) fun d hd => by
    rw [maskChannels_onlyChan, List.mem_singleton] at hd; exact hd ▸ hs]
  simp only [maskChannels_onlyChan, Bool.and_assoc, maskOf_onlyChan, List.foldl_cons, List.foldl_nil]

theorem State.not_pending_of_active (h : (s.engine c).run.active = true) (hp : s.playOf c = none ∨ afterPlay = false) :
    s.Stoppable afterPlay c where
  rests hr := nomatch h.symm.trans hr
  plays ha hs := by
    rcases hp with hp | hp
    · rw [hp] at hs; cases hs
    · cases hp.symm.trans ha

/-- STOP is at home in a state whose play records are those of programs, and whose pending stops are in PLAY steps. -/
theorem State.stoppable_of_program (hprogram : (s.playOf c).isSome = true → (s.engine c).run.inProgram = true)
    (hpending : (s.engine c).stopPending = true → (s.playOf c).isSome = true) : s.Stoppable afterPlay c where
  rests hr := by
    have hplay : ¬(s.playOf c).isSome = true := fun h => by
      have := (RunState.active_of_inProgram (hprogram h)).symm.trans hr
      cases this
    exact ⟨Bool.eq_false_iff.mpr fun h => hplay (hpending h), by simpa using hplay⟩
  plays _ := hprogram

theorem boolOfCode_cases {mode : Byte} (h : boolOfCode mode = some afterPlay) :
    mode = 0 ∧ afterPlay = false ∨ mode = 1 ∧ afterPlay = true := by
  revert mode afterPlay
  decide

end

/-! ### The release of a reference (R35) -/

section
variable {s : State} {serial : Nat}

/-- The entry of a RETIRED image with one reference of a serial fewer. -/
def RetiredEntry.released (serial : Nat) (e : RetiredEntry) : RetiredEntry :=
  { e with image := e.image.released serial }

theorem RetiredEntry.released_self (e : RetiredEntry) :
    e.released e.image.serial = { e with image := { e.image with refs := e.image.refs - 1 } } := by
  rw [RetiredEntry.released, Image.released, if_pos rfl]

theorem RetiredEntry.released_other {e : RetiredEntry} (h : e.image.serial ≠ serial) : e.released serial = e := by
  rw [RetiredEntry.released, Image.released, if_neg h]

theorem map_released_others {l : List RetiredEntry} (h : ∀ e ∈ l, e.image.serial ≠ serial) :
    l.map (RetiredEntry.released serial) = l :=
  (List.map_congr_left fun e he => RetiredEntry.released_other (h e he)).trans (List.map_id l)

/-- The release of a reference that leaves every RETIRED image with one frees none. -/
theorem State.release_counts (h : ∀ e ∈ s.retired, e.image.serial = serial → 1 < e.image.refs) :
    s.release serial = s.mapImages (Image.released serial) := by
  have hnone : (s.mapImages (Image.released serial)).retired.find?
      (fun e => decide (e.image.serial = serial ∧ e.image.refs = 0)) = none := by
    rw [List.find?_eq_none]
    intro x hx
    obtain ⟨e, he, rfl⟩ := List.mem_map.mp hx
    by_cases hs : e.image.serial = serial
    · have := h e he hs
      simp [Image.released, hs]
      omega
    · simp [Image.released, hs]
  rw [State.release, hnone]

/-- The release of the last reference of a RETIRED image frees it. -/
theorem State.release_frees {before after : List RetiredEntry} {e : RetiredEntry}
    (hr : s.retired = before ++ e :: after) (hs : e.image.serial = serial) (he : e.image.refs = 1)
    (hothers : ∀ x ∈ before ++ after, x.image.serial ≠ serial) :
    s.release serial = ({ s.mapImages (Image.released serial) with
      retired := before ++ after
      free := giveBack ⟨e.image.firstPage, e.image.pageCount⟩ s.free }).notify
        (.freed serial e.origin e.image.pageCount) := by
  have hbefore : ∀ x ∈ before, x.image.serial ≠ serial := fun x hx => hothers x (List.mem_append_left _ hx)
  have hafter : ∀ x ∈ after, x.image.serial ≠ serial := fun x hx => hothers x (List.mem_append_right _ hx)
  have hserial : (e.released serial).image.serial = serial := by
    subst hs
    rw [RetiredEntry.released_self]
  have hrefs : (e.released serial).image.refs = 0 := by
    subst hs
    rw [RetiredEntry.released_self, he]
  have hretired : (s.mapImages (Image.released serial)).retired = before ++ e.released serial :: after := by
    change s.retired.map (RetiredEntry.released serial) = _
    rw [hr, List.map_append, List.map_cons, map_released_others hbefore, map_released_others hafter]
  have hfind : (before ++ e.released serial :: after).find?
      (fun e => decide (e.image.serial = serial ∧ e.image.refs = 0)) = some (e.released serial) := by
    rw [List.find?_append, List.find?_eq_none.mpr fun x hx => by simp [hbefore x hx]]
    simp [hserial, hrefs]
  have herase : (before ++ e.released serial :: after).erase (e.released serial) = before ++ after := by
    rw [List.erase_append_right _ fun hm => hbefore _ hm hserial, List.erase_cons_head]
  rw [State.release, hretired, hfind]
  dsimp only
  rw [herase]
  subst hs
  rw [RetiredEntry.released_self]
  rfl

end

end Sys2Proof.Machine

namespace Sys2Proof.Proofs
open Machine

/-- Settles O31: STOP of one channel and of several, by `exec_stop_one` and `exec_stop`; the release, by whether a
RETIRED image loses its last reference. -/
theorem stopEndsARun : Obligations.StopEndsARun := by
  refine ⟨fun tag mode c s ho hmode => ⟨fun hactive hplay => ?_, fun p hactive hplay => ?_, fun hrun hplay => ?_,
    fun hactive hpending hplay => ?_⟩, ?_, ?_⟩
  · obtain ⟨afterPlay, hcode⟩ := boolOfCode_of_le hmode
    rw [exec_stop_one ho hcode (State.not_pending_of_active hactive (.inl hplay))]
    simp [State.stopOne, State.ended, hactive, hplay]
  · rw [exec_stop_one ho (afterPlay := false) rfl (State.not_pending_of_active hactive (.inr rfl))]
    simp [State.stopOne, State.ended, hactive, hplay]
  · have hactive := RunState.active_of_inProgram hrun
    obtain ⟨p, hp⟩ := Option.isSome_iff_exists.mp hplay
    rw [exec_stop_one (mode := 1) (afterPlay := true) ho rfl (State.stoppable_of_program (fun _ => hrun) fun _ => hplay)]
    simp [State.stopOne, hactive, hp]
  · obtain ⟨afterPlay, hcode⟩ := boolOfCode_of_le hmode
    rw [exec_stop_one ho hcode ⟨fun _ => ⟨hpending, hplay⟩, fun _ h => by rw [hplay] at h; cases h⟩]
    simp [State.stopOne, hactive, hplay]
  · intro tag mask mode s ho hmask hmode hprogram hpending ended stops
    obtain ⟨afterPlay, hcode⟩ := boolOfCode_of_le hmode
    have hs : ∀ c ∈ maskChannels mask, s.Stoppable afterPlay c := fun c _ =>
      State.stoppable_of_program (hprogram c) (hpending c)
    have hstops : stops = s.stopOne afterPlay := funext fun u => funext fun c => by
      refine ite_congr rfl (fun _ => ?_) fun _ => rfl
      cases s.playOf c with
      | none => rfl
      | some p => obtain ⟨rfl, rfl⟩ | ⟨rfl, rfl⟩ := boolOfCode_cases hcode <;> rfl
    rw [hstops, exec_stop ho hcode hmask hs]
    obtain ⟨rfl, rfl⟩ | ⟨rfl, rfl⟩ := boolOfCode_cases hcode <;> rfl
  · intro serial s lower handles
    exact ⟨fun h => State.release_counts h, fun before e after hr hs he hothers =>
      State.release_frees hr hs he hothers⟩

end Sys2Proof.Proofs
end

section
/-!
The step kinds, the sequential advance and the loop test, the steps of one event, and the fault (R85 to R101, R107).
-/
namespace Sys2Proof.Machine

variable {s u : State} {c : Chan} {q : Condition}

/-! ### Tests leave the program memory as it stands -/

theorem State.windowSize_tested (s : State) (c d : Chan) (q : Condition) :
    (s.tested c q).windowSize d = s.windowSize d := by
  unfold State.tested
  split
  · rfl
  · cases q.operand <;> rfl

/-- The loops of a channel and its step index are changed together. -/
theorem State.goTo_setLoops (loops : List LoopRecord) (k : Nat) :
    (s.setLoops c loops).goTo c k = s.setEngine c { s.engine c with loops := loops, index := k } := by
  simp only [State.goTo, State.setLoops, State.setEngine_setEngine, State.engine_setEngine_self]

/-! ### The sequential advance and its loop test (R86, R93) -/

/-- The channel goes to an index of its window, or faults at the window's end. -/
def State.landing (u : State) (c : Chan) (k : Nat) : State × Bool :=
  if k < u.windowSize c then (u.goTo c k, true) else (u.faultChannel c .windowEnd none, false)

theorem State.advance_of_loopTest {k : Nat}
    (h : s.loopTest c (s.engine c).index (s.engine c).loops.length = (k, u)) : s.advance c = u.landing c k := by
  rw [State.advance, h]
  rfl

/-- A pop in the loop test is a sequential advance of the channel without the innermost record. -/
theorem State.advance_of_pop {rest : List LoopRecord}
    (h : s.loopTest c (s.engine c).index (s.engine c).loops.length =
      (u.setLoops c rest).loopTest c (u.engine c).index rest.length) :
    s.advance c = (u.setLoops c rest).advance c := by
  have hengine : (u.setLoops c rest).engine c = { u.engine c with loops := rest } := u.engine_setEngine_self c _
  rw [State.advance, h, State.advance, hengine]

theorem State.advance_empty (h : (s.engine c).loops = []) : s.advance c = s.landing c ((s.engine c).index + 1) :=
  State.advance_of_loopTest (by rw [h]; rfl)

section
variable {r : LoopRecord} {rest : List LoopRecord} (h : (s.engine c).loops = r :: rest)
include h

theorem State.advance_within (hr : r.last ≠ (s.engine c).index) :
    s.advance c = s.landing c ((s.engine c).index + 1) :=
  State.advance_of_loopTest (by rw [h, List.length_cons, State.loopTest, h]; exact if_neg hr)

theorem State.advance_counts {k : Nat} (hr : r.last = (s.engine c).index) (hk : r.termination = .count k)
    (hmore : 1 < k) :
    s.advance c = (s.setLoops c ({ r with termination := .count (k - 1) } :: rest)).landing c r.first :=
  State.advance_of_loopTest (by
    rw [h, List.length_cons, State.loopTest, h]
    simp only [if_pos hr, hk, if_neg (Nat.not_le.mpr hmore)])

theorem State.advance_countEnds {k : Nat} (hr : r.last = (s.engine c).index) (hk : r.termination = .count k)
    (hlast : k ≤ 1) : s.advance c = (s.setLoops c rest).advance c :=
  State.advance_of_pop (by
    rw [h, List.length_cons, State.loopTest, h]
    simp only [if_pos hr, hk, if_pos hlast])

theorem State.advance_repeats (hr : r.last = (s.engine c).index) (hq : r.termination = .condition q)
    (ht : s.operand c q.operand = q.negated) : s.advance c = s.landing c r.first :=
  State.advance_of_loopTest (by
    rw [h, List.length_cons, State.loopTest, h]
    simp only [if_pos hr, hq, State.test_false ht]
    rfl)

theorem State.advance_conditionEnds (hr : r.last = (s.engine c).index) (hq : r.termination = .condition q)
    (ht : s.operand c q.operand ≠ q.negated) : s.advance c = ((s.tested c q).setLoops c rest).advance c :=
  State.advance_of_pop (by
    rw [h, List.length_cons, State.loopTest, h, State.engine_tested]
    simp only [if_pos hr, hq, State.test_true ht, if_true])

end

/-! ### The step at the step index (R78) -/

theorem State.executeStep_stop (h : s.localStep c (s.engine c).index = .stop) :
    s.executeStep c = (s.endRun c .completed, false) := by
  rw [State.executeStep, h]

theorem State.executeStep_play {handle : BitVec 10} {count : Half} {a1 a2 b1 b2 : MarkerAction} {scale : Option Half}
    {hold : Option Condition}
    (h : s.localStep c (s.engine c).index = .play handle count a1 a2 b1 b2 scale hold) :
    s.executeStep c = s.playStep c handle.toNat count.toNat a1 a2 b1 b2 scale hold := by
  rw [State.executeStep, h]

theorem State.executeStep_loop {last : BitVec 12} {ending : LoopEnd}
    (h : s.localStep c (s.engine c).index = .loop last ending) :
    s.executeStep c = s.loopStep c last.toNat ending := by
  rw [State.executeStep, h]

theorem State.executeStep_branch {target : BitVec 12} {leave : Bool}
    (h : s.localStep c (s.engine c).index = .branch q target leave) :
    s.executeStep c = s.branchStep c q target.toNat leave := by
  rw [State.executeStep, h]

theorem State.executeStep_call {target : BitVec 12} (h : s.localStep c (s.engine c).index = .call target) :
    s.executeStep c = s.callStep c target.toNat := by
  rw [State.executeStep, h]

theorem State.executeStep_ret (h : s.localStep c (s.engine c).index = .ret) :
    s.executeStep c = s.returnStep c := by
  rw [State.executeStep, h]

theorem State.executeStep_wait {out : WaitOutput} (h : s.localStep c (s.engine c).index = .wait q out) :
    s.executeStep c = s.waitStep c q out := by
  rw [State.executeStep, h]

theorem State.executeStep_timer {preset : Half} {tap : Fin 8}
    (h : s.localStep c (s.engine c).index = .timer preset tap) :
    s.executeStep c = (s.loadTimer c preset.toNat tap).advance c := by
  rw [State.executeStep, h]

theorem State.executeStep_signal {flag : Option (Fin 8 × FlagAction)} {notify : Bool} {code : Byte}
    (h : s.localStep c (s.engine c).index = .signal flag notify code) :
    s.executeStep c = s.signalStep c flag notify code := by
  rw [State.executeStep, h]

/-! ### PLAY (R88, R34) -/

section
variable {handle passCount : Nat} {a1 a2 b1 b2 : MarkerAction} {scale : Option Half} {hold : Option Condition} {i : Image}

theorem State.playStep_empty (h : (s.handle handle).current = none) :
    s.playStep c handle passCount a1 a2 b1 b2 scale hold = (s.faultChannel c .noImage (some handle), false) := by
  simp only [State.playStep, State.claimAnswer, h]

theorem State.playStep_damaged (h : (s.handle handle).current = some i) (hd : i.damaged = true)
    (hp : (s.engine c).policy = .fault) :
    s.playStep c handle passCount a1 a2 b1 b2 scale hold =
      (s.faultChannel c .damagedImage (some handle), false) := by
  simp only [State.playStep, State.claimAnswer, h, hd, hp, if_true]

theorem State.playStep_skips (h : (s.handle handle).current = some i) (hd : i.damaged = true)
    (hp : (s.engine c).policy = .skip) :
    s.playStep c handle passCount a1 a2 b1 b2 scale hold = s.advance c := by
  simp only [State.playStep, State.claimAnswer, h, hd, hp, if_true]

theorem State.claimAnswer_plays {policy : DamagePolicy} (h : (s.handle handle).current = some i)
    (hd : i.damaged = false ∨ policy = .playAnyway) : s.claimAnswer handle policy = .play i := by
  simp only [State.claimAnswer, h]
  rcases hd with hd | rfl
  · rw [hd]; rfl
  · exact ite_self _

theorem State.playStep_plays (h : (s.handle handle).current = some i)
    (hd : i.damaged = false ∨ (s.engine c).policy = .playAnyway) :
    s.playStep c handle passCount a1 a2 b1 b2 scale hold =
      ((s.setHandle handle ⟨some { i with refs := i.refs + 1 }, (s.handle handle).incoming⟩).setChan c
        { s.chan c with
          engine := { s.engine c with activity := .playing (playRecord i handle passCount scale hold a2 b2) }
          output := (s.output c).mark a1 b1 }, false) := by
  simp only [State.playStep, State.claimAnswer_plays h hd]
  simp only [State.markOutput, State.takeReference, State.setOutput, State.setEngine, State.engine, State.output,
    State.chan_setChan_self, State.setChan_setChan, State.chan_setHandle]

end

/-! ### LOOP, BRANCH, CALL, RETURN and WAIT (R92, R95 to R98) -/

section
variable {last target : Nat} {ending : LoopEnd} {leave : Bool} {out : WaitOutput}

/-- R92: the kinds that a LOOP's last step must not be. -/
theorem Step.mayEndLoop_eq_false {x : Step} : x.mayEndLoop = false ↔
    x = .stop ∨ x = .ret ∨ (∃ t, x = .call t) ∨ (∃ q t l, x = .branch q t l) ∨ ∃ n t, x = .loop n t := by
  cases x <;> simp [Step.mayEndLoop]

theorem State.loopStep_badEnd (h : last ≤ (s.engine c).index ∨ s.windowSize c ≤ last ∨
      (s.localStep c last).mayEndLoop = false) :
    s.loopStep c last ending = (s.faultChannel c .badLoopEnd none, false) := by
  unfold State.loopStep
  by_cases hbounds : last ≤ (s.engine c).index ∨ s.windowSize c ≤ last
  · exact if_pos hbounds
  · have hkind : (s.localStep c last).mayEndLoop = false := by tauto
    simp only [if_neg hbounds, hkind, Bool.not_false, if_true]

theorem State.loopStep_good (h1 : (s.engine c).index < last) (h2 : last < s.windowSize c)
    (h3 : (s.localStep c last).mayEndLoop = true) :
    s.loopStep c last ending =
      if 6 ≤ (s.engine c).loops.length then (s.faultChannel c .loopOverflow none, false)
      else (s.setEngine c { s.engine c with
        loops := ⟨(s.engine c).index + 1, last, ending.termination⟩ :: (s.engine c).loops
        index := (s.engine c).index + 1 }, true) := by
  have hbounds : ¬(last ≤ (s.engine c).index ∨ s.windowSize c ≤ last) := by omega
  simp only [State.loopStep, if_neg hbounds, h3, Bool.not_true, State.goTo_setLoops]
  rfl

theorem State.branchStep_badTarget (h : s.windowSize c ≤ target) :
    s.branchStep c q target leave = (s.faultChannel c .badTarget none, false) := if_pos h

theorem State.branchStep_false (h : target < s.windowSize c) (ht : s.operand c q.operand = q.negated) :
    s.branchStep c q target leave = s.advance c := by
  simp only [State.branchStep, if_neg (Nat.not_le.mpr h), State.test_false ht]
  rfl

theorem State.branchStep_true (h : target < s.windowSize c) (ht : s.operand c q.operand ≠ q.negated) :
    s.branchStep c q target leave = ((s.tested c q).setEngine c { s.engine c with
      loops := if leave = true then (s.engine c).loops.tail else (s.engine c).loops
      index := target }, true) := by
  simp only [State.branchStep, if_neg (Nat.not_le.mpr h), State.test_true ht, if_true]
  cases leave with
  | true => simp only [if_true, State.goTo_setLoops, State.engine_tested]
  | false =>
    rw [if_neg Bool.false_ne_true, if_neg Bool.false_ne_true, State.goTo, State.engine_tested]

theorem State.callStep_badTarget (h : s.windowSize c ≤ target) :
    s.callStep c target = (s.faultChannel c .badTarget none, false) := if_pos h

theorem State.callStep_goodTarget (h : target < s.windowSize c) : s.callStep c target =
    if 4 ≤ (s.engine c).returns.length then (s.faultChannel c .returnOverflow none, false)
    else (s.setEngine c { s.engine c with
      returns := ⟨(s.engine c).index + 1, (s.engine c).loops.length⟩ :: (s.engine c).returns
      index := target }, true) := if_neg (Nat.not_le.mpr h)

theorem State.returnStep_empty (h : (s.engine c).returns = []) :
    s.returnStep c = (s.faultChannel c .returnEmpty none, false) := by
  simp only [State.returnStep, h]

theorem State.returnStep_some {r : ReturnRecord} {rest : List ReturnRecord} (h : (s.engine c).returns = r :: rest) :
    s.returnStep c =
      if s.windowSize c ≤ r.index then (s.faultChannel c .windowEnd none, false)
      else (s.setEngine c { s.engine c with
        returns := rest
        loops := (s.engine c).loops.drop ((s.engine c).loops.length - r.depth)
        index := r.index }, true) := by
  simp only [State.returnStep, h]

theorem State.waitStep_false (ht : s.operand c q.operand = q.negated) :
    s.waitStep c q out = (s.setEngine c { s.engine c with activity := .waiting ⟨q, out⟩ }, false) := by
  simp only [State.waitStep, State.test_false ht]
  rfl

theorem State.waitStep_true (ht : s.operand c q.operand ≠ q.negated) :
    s.waitStep c q out = (s.tested c q).advance c := by
  simp only [State.waitStep, State.test_true ht, if_true]

end

/-! ### SIGNAL (R100, R123) -/

theorem getLsbD_flagAfter (flags : BitVec 8) (n m : Fin 8) (a : FlagAction) :
    (flagAfter flags n a).getLsbD m.val =
      if m = n then match a with | .set => true | .clear => false | .toggle => !flags.getLsbD n.val
      else flags.getLsbD m.val := by
  have bit : (1#8 <<< n.val).getLsbD m.val = decide (m = n) := by revert m n; decide
  by_cases h : m = n
  · subst h
    cases a <;> simp [flagAfter, bit, -BitVec.getLsbD_eq_getElem, -BitVec.getLsbD_shiftLeft]
  · cases a <;> simp [flagAfter, bit, h, -BitVec.getLsbD_eq_getElem, -BitVec.getLsbD_shiftLeft]

/-! ### The end of a run and the fault (R101, R107) -/

/-- R101: the run of a channel that holds no reference ends. -/
theorem State.endRun_unclaimed {cause : RunEndCause} (h : s.playOf c = none) :
    s.endRun c cause = (s.setChan c (s.chan c).stopped).notify (.runEnd c cause (s.engine c).index none) := by
  rw [State.endRun, State.endReference_none h, State.idleChannel_eq]

/-- R107, R164: a fault puts the output at rest as a stop does. -/
theorem Channel.output_stopped (x : Channel) : x.stopped.output = x.output.toRest := by
  simp [Channel.stopped, Output.toRest, Output.driveLines, markerLine]

theorem State.faultChannel_unclaimed {cause : FaultCause} {handle : Option Nat} (h : s.playOf c = none) :
    let f : FaultRecord :=
      ⟨cause, (s.engine c).index, handle, (s.engine c).loops.length, (s.engine c).returns.length⟩
    s.faultChannel c cause handle =
      (s.setChan c { s.chan c with
        engine := (s.engine c).toFaulted f
        timer := { s.timer c with running := false }
        output := (s.chan c).stopped.output }).notify (.runEnd c .fault (s.engine c).index (some f)) := by
  simp only [State.faultChannel, State.endReference_none h, State.haltTimer, State.restOutput, State.setEngine,
    State.setTimer, State.setOutput, State.timer, State.output, State.engine, State.chan_setChan_self,
    State.setChan_setChan, Channel.output_stopped]

/-! ### A channel whose first step is STOP -/

/-- R101: an event at which the channel finds a STOP step at its step index. -/
theorem State.stepEvent_stop (h : s.localStep c (s.engine c).index = .stop) :
    s.stepEvent c = (s.setChan c (s.chan c).stopped).notify (.runEnd c .completed (s.engine c).index none) := by
  have hstep : (s.beginEvent c).localStep c ((s.beginEvent c).engine c).index = .stop := by
    rw [State.beginEvent, State.engine_setEngine_self]
    exact h
  have hexec : (s.beginEvent c).executeStep c = ((s.beginEvent c).endRun c .completed, false) :=
    State.executeStep_stop hstep
  rw [State.stepEvent, State.takeSteps, hexec]
  exact State.endRun_beginEvent s c .completed

/-- R84, R116: a channel whose software trigger latch lets it start at a STOP step: the latch goes with the run. -/
theorem State.startChannel_soft_stop (hrequest : (s.engine c).requestPause = false)
    (hline : (s.engine c).linePause = false) (hstep : s.localStep c (s.engine c).index = .stop) :
    (s.tested c ⟨.soft, false⟩).startChannel c =
      (s.setChan c (s.chan c).stopped).notify (.runEnd c .completed (s.engine c).index none) := by
  have hv : (s.tested c ⟨.soft, false⟩).engine c = s.engine c := s.engine_tested c c _
  rw [State.startChannel, hv]
  rw [if_neg (by simp [hrequest, hline])]
  rw [State.stepEvent_stop (by rw [State.engine_setEngine_self]; exact hstep), State.engine_setEngine_self]
  simp only [State.tested, State.consume, State.setLatches, State.setEngine, State.engine, State.chan_setChan_self,
    State.setChan_setChan, Bool.false_eq_true, if_false]
  rfl

end Sys2Proof.Machine

namespace Sys2Proof.Proofs
open Machine

/-- Settles O34: each step kind by the lemma for each of its outcomes, the advance by the turns of the loop test. -/
theorem callsFaultsAndStops : Obligations.CallsFaultsAndStops := by
  refine ⟨?_, ?_, ?_, ?_, ?_⟩
  · intro c s e o step size faults tested isFalse barred mark
    refine ⟨?_, ?_, ?_, ?_, ?_, ?_, ?_, ?_, ?_, ?_⟩
    · intro handle count a1 a2 b1 b2 scale hold hstep
      have hplay : s.executeStep c = s.playStep c handle.toNat count.toNat a1 a2 b1 b2 scale hold :=
        State.executeStep_play hstep
      have hmark : mark = MarkerAction.apply := funext fun level => funext fun a => by cases a <;> rfl
      refine ⟨fun h => hplay.trans (State.playStep_empty h), fun i hi => ⟨fun k n w hp => ⟨fun hpolicy => ?_,
        fun hpolicy => ?_⟩, fun h => ?_⟩⟩
      · exact hplay.trans (State.playStep_damaged hi (by rw [Image.damaged, hp]) hpolicy)
      · exact hplay.trans (State.playStep_skips hi (by rw [Image.damaged, hp]) hpolicy)
      · rw [hmark]
        refine hplay.trans (State.playStep_plays hi ?_)
        rcases h with ⟨w, hp⟩ | ⟨hpolicy, -⟩
        · exact .inl (by rw [Image.damaged, hp])
        · exact .inr hpolicy
    · intro last ending hstep
      have hloop : s.executeStep c = s.loopStep c last.toNat ending :=
        State.executeStep_loop hstep
      refine ⟨fun h => hloop.trans (State.loopStep_badEnd (h.imp_right (.imp_right Step.mayEndLoop_eq_false.mpr))),
        fun h1 h2 h3 => ?_⟩
      have hgood := hloop.trans (State.loopStep_good h1 h2
        (Bool.not_eq_false _ ▸ (not_congr Step.mayEndLoop_eq_false).mpr h3))
      refine ⟨fun h => hgood.trans (if_pos h), fun h => hgood.trans ((if_neg (Nat.not_le.mpr h)).trans ?_)⟩
      cases ending <;> rfl
    · intro q target leave hstep
      have hbranch : s.executeStep c = s.branchStep c q target.toNat leave :=
        State.executeStep_branch hstep
      exact ⟨fun h => hbranch.trans (State.branchStep_badTarget h),
        fun h ht => hbranch.trans (State.branchStep_false h ht),
        fun h ht => hbranch.trans (State.branchStep_true h ht)⟩
    · intro target hstep
      have hcall : s.executeStep c = s.callStep c target.toNat :=
        State.executeStep_call hstep
      exact ⟨fun h => hcall.trans (State.callStep_badTarget h),
        fun h hr => hcall.trans ((State.callStep_goodTarget h).trans (if_pos hr)),
        fun h hr => hcall.trans ((State.callStep_goodTarget h).trans (if_neg (Nat.not_le.mpr hr)))⟩
    · intro hstep
      have hreturn : s.executeStep c = s.returnStep c := State.executeStep_ret hstep
      exact ⟨fun h => hreturn.trans (State.returnStep_empty h), fun r rest h =>
        ⟨fun hr => hreturn.trans ((State.returnStep_some h).trans (if_pos hr)),
        fun hr => hreturn.trans ((State.returnStep_some h).trans (if_neg (Nat.not_le.mpr hr)))⟩⟩
    · intro q out hstep
      have hwait : s.executeStep c = s.waitStep c q out :=
        State.executeStep_wait hstep
      exact ⟨fun ht => hwait.trans (State.waitStep_false ht), fun ht => hwait.trans (State.waitStep_true ht)⟩
    · exact fun preset tap hstep => State.executeStep_timer hstep
    · exact fun notify code hstep => State.executeStep_signal hstep
    · intro n a notify code hstep
      refine ⟨flagAfter s.flags n a, fun m => getLsbD_flagAfter s.flags n m a, ?_⟩
      refine (State.executeStep_signal hstep).trans ?_
      rw [State.signalStep, State.writeFlags_eq]
      rfl
    · exact fun hstep hplay =>
        (State.executeStep_stop hstep).trans (congrArg (·, false) (State.endRun_unclaimed hplay))
  · intro c s e goesTo
    refine ⟨fun h => State.advance_empty h, fun r rest h => ⟨fun hr => State.advance_within h hr,
      fun k hr hk => ⟨fun hmore => State.advance_counts h hr hk hmore,
        fun hlast => State.advance_countEnds h hr hk hlast⟩,
      fun q hr hq => ⟨fun ht => State.advance_repeats h hr hq ht, fun ht => ?_⟩⟩⟩
    refine (State.advance_conditionEnds h hr hq ht).trans ?_
    rw [State.setLoops, State.engine_tested]
    rfl
  · intro c s begun
    refine ⟨rfl, fun h => ?_, fun h => ?_, rfl, fun n u h => ?_, fun n u h => ?_⟩
    · exact if_pos h
    · exact if_neg (Bool.eq_false_iff.mp h)
    · rw [State.takeSteps, h]
      rfl
    · rw [State.takeSteps, h]
      rfl
  · exact fun c cause handle s h => State.faultChannel_unclaimed h
  · intro c s hlive hfirst hperiods hr hh hq hsoft hrequest hline hstep
    obtain ⟨-, -, htrue⟩ := State.changeEvent_armed hr hh hq
    have hchanged : s.changed c = s.taken (.operandChange c) := by
      rw [State.changed, hperiods]
      rfl
    rw [hchanged] at htrue
    have hstopped := State.startChannel_soft_stop (s := s.taken (.operandChange c)) (c := c) hrequest hline hstep
    rw [State.exec_operandChange hlive hfirst, htrue (fun h => nomatch hsoft.symm.trans h), hstopped]
    rfl

end Sys2Proof.Proofs
end

section
/-!
The engine reset (R214): the references released, the RETIRED images freed, and the import in flight cancelled.
-/
namespace Sys2Proof.Machine

/-! ### What the blocks keep while references are released (R35) -/

/-- An image without its count of references. -/
def Image.unreferred (i : Image) : Image := { i with refs := 0 }

/-- The images of a handle without their counts of references. -/
def HandleRecord.unreferred (r : HandleRecord) : HandleRecord :=
  ⟨r.current.map Image.unreferred, r.incoming.map Image.unreferred⟩

/-- The state `t` comes after `s` by channels that change and references that are released: the images keep their
places at their handles. -/
structure State.Releases (s t : State) : Prop where
  frame : t = { s with
    channels := t.channels, handles := t.handles, retired := t.retired, free := t.free
    link := { s.link with notices := t.link.notices, lost := t.link.lost } }
  handle : ∀ h, (t.handle h).unreferred = (s.handle h).unreferred

section
variable {s t u : State} {c : Chan}

theorem State.Releases.importer (h : s.Releases t) : t.importer = s.importer := by
  rw [h.frame]

theorem State.Releases.refl (s : State) : s.Releases s := ⟨rfl, fun _ => rfl⟩

theorem State.Releases.trans (hst : s.Releases t) (htu : t.Releases u) : s.Releases u where
  frame := by
    have h := htu.frame
    rw [hst.frame] at h
    exact h
  handle h := (htu.handle h).trans (hst.handle h)

theorem State.Releases.setChan (s : State) (c : Chan) (x : Channel) : s.Releases (s.setChan c x) :=
  ⟨rfl, fun _ => rfl⟩

/-- A notice reaches the queue, or is lost. -/
theorem State.notify_frame (s : State) (n : Notice) : ∃ notices lost,
    s.notify n = { s with link := { s.link with notices := notices, lost := lost } } := by
  unfold State.notify Link.notify
  split
  · split
    · exact ⟨_, _, rfl⟩
    · exact ⟨_, _, rfl⟩
  · exact ⟨_, _, rfl⟩

theorem State.Releases.notify (s : State) (n : Notice) : s.Releases (s.notify n) := by
  obtain ⟨notices, lost, h⟩ := s.notify_frame n
  rw [h]
  exact ⟨rfl, fun _ => rfl⟩

theorem Image.unreferred_released (serial : Nat) (i : Image) : (i.released serial).unreferred = i.unreferred := by
  unfold Image.released
  split <;> rfl

theorem State.Releases.release (s : State) (serial : Nat) : s.Releases (s.release serial) := by
  have hcounts : s.Releases (s.mapImages (Image.released serial)) := ⟨rfl, fun h => by
    rw [State.handle_mapImages]
    simp only [HandleRecord.unreferred, Option.map_map, Function.comp_def, Image.unreferred_released]⟩
  unfold State.release
  dsimp only
  split
  · exact hcounts
  · next e _ =>
    have hfreed : (s.mapImages (Image.released serial)).Releases
        ({ s.mapImages (Image.released serial) with
          retired := (s.mapImages (Image.released serial)).retired.erase e }.returnPages e.image) :=
      ⟨rfl, fun _ => rfl⟩
    exact hcounts.trans (hfreed.trans (.notify _ _))

/-! ### One channel (R214) -/

/-- A channel after the engine reset: stopped, and its timer in its reset state but for its notice switch. -/
def Channel.engineReset (x : Channel) : Channel :=
  { x.stopped with
    timer := { running := false, count := 0, tap := 0, expired := false, notify := x.timer.notify } }

theorem State.resetChannel_eq (s : State) (c : Chan) :
    s.resetChannel c = (s.endReference c).setChan c (s.chan c).engineReset := by
  simp only [State.resetChannel, State.idleChannel_eq, State.setTimer, State.timer, State.chan_setChan_self,
    State.setChan_setChan, State.chan_endReference]
  rfl

theorem State.Releases.resetChannel (s : State) (c : Chan) : s.Releases (s.resetChannel c) := by
  rw [State.resetChannel_eq]
  refine .trans ?_ (.setChan _ c _)
  cases hp : s.playOf c with
  | none => rw [State.endReference_none hp]; exact .refl s
  | some p => rw [State.endReference_some hp]; exact .release s p.serial

/-! ### Every channel -/

/-- R214: the channels' part of the engine reset. -/
def State.resetChannels (s : State) : State := s.eachChannel fun c u => u.resetChannel c

theorem State.Releases.resetChannels (s : State) : s.Releases s.resetChannels :=
  List.foldlRecOn (motive := s.Releases) _ _ (.refl s) fun u hu c _ => hu.trans (.resetChannel u c)

theorem State.chan_resetChannels (s : State) (c : Chan) : s.resetChannels.chan c = (s.chan c).engineReset := by
  have h := State.foldl_own (s := s) (f := State.resetChannel) (f' := State.resetChannel)
    (fun d => (s.chan d).engineReset) nodup_allChannels fun d _ u hu =>
      ⟨rfl, by rw [State.resetChannel_eq, State.chan_setChan_self, hu], fun e he => by
        rw [State.resetChannel_eq, State.chan_setChan_ne _ he, State.chan_endReference]⟩
  exact (h.2 c).trans (if_pos (mem_allChannels c))

/-- Where no channel holds a reference, the channels alone change. -/
theorem State.resetChannels_unclaimed (h : ∀ c, s.playOf c = none) :
    s.resetChannels = { s with channels := s.resetChannels.channels } :=
  (s.eachChannel_local (fun c => (s.chan c).engineReset) (fun c u => u.resetChannel c) fun c u _ hc => by
    rw [State.resetChannel_eq, State.endReference_none ((State.playOf_congr hc).trans (h c)), hc]).2

theorem State.claims_resetChannels (s : State) (c : Chan) : s.resetChannels.claims c = none := by
  rw [State.claims, State.seat, State.engine, State.chan_resetChannels]
  rfl

/-! ### The images once no channel holds a reference (R35, R36) -/

theorem State.refs_of_unclaimed (hs : s.HeldWf) (hc : ∀ c, s.claims c = none) {i : Image} (hi : i ∈ s.liveImages) :
    i.refs = 0 :=
  (hs.refs.referred.counts _ (List.mem_map_of_mem hi)).trans
    (claimants_eq_zero fun c q hq => by rw [hc c] at hq; cases hq)

theorem State.retired_of_unclaimed (hs : s.HeldWf) (hc : ∀ c, s.claims c = none) : s.retired = [] :=
  List.eq_nil_iff_forall_not_mem.mpr fun e he => by
    have hzero := State.refs_of_unclaimed hs hc (i := e.image)
      (List.mem_append_right _ (List.mem_map_of_mem he))
    exact (hs.refs.retired e he).ne' hzero

theorem map_unreferred {x : Option Image} (h : ∀ i, x = some i → i.refs = 0) : x.map Image.unreferred = x := by
  cases x with
  | none => rfl
  | some i =>
    rw [Option.map_some, Image.unreferred, ← h i rfl]

theorem State.unreferred_of_unclaimed (hs : s.HeldWf) (hc : ∀ c, s.claims c = none) (h : Nat) :
    (s.handle h).unreferred = s.handle h := by
  have hcurrent := map_unreferred fun i hi => State.refs_of_unclaimed hs hc (i := i)
    (hs.pages.listed.mem_liveImages.mpr (.inl ⟨h, .inl hi⟩))
  rw [HandleRecord.unreferred, hcurrent, map_unreferred (hs.refs.incoming h)]

/-! ### The reset with references and an import as they stand -/

theorem State.HeldWf.resetChannels (hs : s.HeldWf) : s.resetChannels.HeldWf :=
  hs.moves (State.Moves.foldl (fun u c => u.resetChannel c) .resetChannel _ s)

/-- R35: every image keeps its place, and has no reference. -/
theorem State.handle_resetChannels (hs : s.HeldWf) (h : Nat) : s.resetChannels.handle h =
    ⟨(s.handle h).current.map Image.unreferred, (s.handle h).incoming⟩ := by
  rw [← State.unreferred_of_unclaimed hs.resetChannels s.claims_resetChannels,
    (State.Releases.resetChannels s).handle, HandleRecord.unreferred, map_unreferred (hs.refs.incoming h)]

/-- R180: the import in flight ends, if there is one, and its image goes from its handle. -/
theorem State.cancelImport_spec (hs : s.PagesWf) (cause : CancelCause) :
    (∃ handles free notices lost, s.cancelImport cause = { s with
      handles := handles, free := free
      importer := { s.importer with record := none, reading := none }
      link := { s.link with notices := notices, lost := lost } }) ∧
    ∀ h, (s.cancelImport cause).handle h = ⟨(s.handle h).current,
      if s.importer.record.map ImportRecord.handle = some h then none else (s.handle h).incoming⟩ := by
  cases hr : s.importer.record with
  | none =>
    have hreading : s.importer.reading = none := by simpa [hr] using hs.importer.1
    have himporter : s.importer = { s.importer with record := none, reading := none } := by
      rw [← hr, ← hreading]
    rw [State.cancelImport_none cause hr]
    exact ⟨⟨s.handles, s.free, s.link.notices, s.link.lost, by rw [← himporter]⟩, fun h => rfl⟩
  | some r =>
    obtain ⟨i, hin, -⟩ := hs.fills hr
    rw [State.cancelImport_some cause hr hin]
    refine ⟨?_, fun h => ?_⟩
    · obtain ⟨notices, lost, hn⟩ := (s.setHandle r.handle ⟨(s.handle r.handle).current, none⟩).notify_frame
        (.importEnd r.handle r.serial (.cancelled r.nextPage cause))
      rw [hn]
      exact ⟨_, _, _, _, rfl⟩
    · refine (hs.listed.handle_setHandle r.handle h _).trans ?_
      by_cases hh : h = r.handle
      · subst hh; simp
      · simp [hh, Ne.symm hh]

/-- R214: the reset of the flags, the scanner and the link's notices. -/
def State.resetOthers (s : State) : State := { s with
  flags := 0
  scanner := s.scanner.stop
  link := { s.link with notices := [], lost := false, awaiting := none } }

theorem State.chan_resetOthers (s : State) (c : Chan) : s.resetOthers.chan c = s.chan c := rfl

theorem State.handle_resetOthers (s : State) (h : Nat) : s.resetOthers.handle h = s.handle h := rfl

theorem State.engineReset_eq (s : State) : s.engineReset = (s.resetChannels.cancelImport .request).resetOthers := by
  unfold State.engineReset State.resetOthers State.resetChannels
  generalize (s.eachChannel fun c u => u.resetChannel c).cancelImport .request = u
  rfl

/-- What the channels' part and the importer's part of the reset leave. -/
theorem State.resetBlocks_frame (hs : s.HeldWf) : ∃ channels handles free notices lost,
    s.resetChannels.cancelImport .request = { s with
      channels := channels, handles := handles, retired := [], free := free
      importer := { s.importer with record := none, reading := none }
      link := { s.link with notices := notices, lost := lost } } := by
  obtain ⟨⟨handles, free, notices, lost, hcancel⟩, -⟩ := State.cancelImport_spec hs.resetChannels.pages .request
  obtain ⟨hframe, -⟩ := State.Releases.resetChannels s
  have hretired := State.retired_of_unclaimed hs.resetChannels s.claims_resetChannels
  rw [hcancel]
  generalize s.resetChannels = u at hframe hretired ⊢
  rw [hretired] at hframe
  rw [hframe]
  exact ⟨u.channels, handles, free, notices, lost, rfl⟩

/-- R214: the reset in a state whose references and import meet the invariants. -/
theorem State.engineReset_spec (hs : s.HeldWf) :
    s.engineReset.PagesWf ∧
    (∀ c, s.engineReset.chan c = (s.chan c).engineReset) ∧
    (∀ h, s.engineReset.handle h = ⟨(s.handle h).current.map Image.unreferred,
      if s.importer.record.map ImportRecord.handle = some h then none else (s.handle h).incoming⟩) ∧
    s.engineReset = { s with
      channels := s.engineReset.channels, handles := s.engineReset.handles, retired := []
      free := s.engineReset.free, flags := 0, scanner := s.scanner.stop
      importer := { s.importer with record := none, reading := none }
      link := { s.link with notices := [], lost := false, awaiting := none } } := by
  have hu := State.Releases.resetChannels s
  have hrecord : s.resetChannels.importer = s.importer := hu.importer
  obtain ⟨-, hhandle⟩ := State.cancelImport_spec hs.resetChannels.pages .request
  obtain ⟨channels, handles, free, notices, lost, hblocks⟩ := State.resetBlocks_frame hs
  refine ⟨hs.pages.moves (.engineReset s), fun c => ?_, fun h => ?_, ?_⟩
  · rw [State.engineReset_eq, State.chan_resetOthers,
      State.chan_of_panel (State.panel_cancelImport s.resetChannels .request), State.chan_resetChannels]
  · rw [State.engineReset_eq, State.handle_resetOthers, hhandle, hrecord, State.handle_resetChannels hs]
  · rw [State.engineReset_eq, hblocks]
    rfl

/-- R214: the reset with no import in flight and no channel holding a reference. -/
theorem State.engineReset_unclaimed (hr : s.importer.record = none) (hp : ∀ c, s.playOf c = none) :
    (∀ c, s.engineReset.chan c = (s.chan c).engineReset) ∧
    s.engineReset = { s with
      channels := s.engineReset.channels, flags := 0, scanner := s.scanner.stop
      link := { s.link with notices := [], lost := false, awaiting := none } } := by
  have hrecord : s.resetChannels.importer.record = none :=
    (congrArg Importer.record (State.Releases.resetChannels s).importer).trans hr
  have hreset : s.engineReset = s.resetChannels.resetOthers := by
    rw [State.engineReset_eq, State.cancelImport_none .request hrecord]
  refine ⟨fun c => ?_, ?_⟩
  · rw [hreset, State.chan_resetOthers, State.chan_resetChannels]
  · rw [hreset, State.resetChannels_unclaimed hp]
    rfl

/-! ### The event (R203, R214) -/

/-- R203: the state in which the reply has been sent in full. -/
def State.replySent (s : State) : State :=
  { s with link := { s.link with sending := none, slot := none, lastSent := some .reply } }

theorem State.HeldWf.replySent (hs : s.HeldWf) : s.replySent.HeldWf where
  pages := State.PagesWf.of_pages (s := s) rfl hs.pages
  refs := State.RefsWf.of_pages (s := s) (f := s.claims) rfl hs.refs
  idle := hs.idle

/-- R214: the end of the reply is the event of the reset, under either of its names. -/
theorem exec_engineReset (hlive : s.inReset = false) (hsends : s.link.sending = some .reply)
    (hawaits : s.link.awaiting = some .engineReset) :
    exec .engineResetPerformed s = .next s.replySent.engineReset.transmit ∧
    exec .frameSent s = .next s.replySent.engineReset.transmit := by
  have hsent : s.completeSending = s.replySent.engineReset := by
    rw [State.completeSending, hsends]
    change s.replySent.afterReply = _
    rw [State.afterReply, show s.replySent.link.awaiting = some .engineReset from hawaits]
  exact ⟨exec_engineResetPerformed hlive hsends hawaits, (exec_frameSent hlive).trans (by rw [hsent])⟩

end

end Sys2Proof.Machine

namespace Sys2Proof.Proofs
open Machine

/-- Settles O13: the reset of a state without references and import, by `State.engineReset_unclaimed`; and of a state
that meets the invariants, by the counts of the references once every channel is IDLE. -/
theorem engineResetIsPerformed : Obligations.EngineResetIsPerformed := by
  intro s hlive hsends hawaits channels rest
  obtain ⟨hexec, hsent⟩ := exec_engineReset hlive hsends hawaits
  refine ⟨fun hr hp => ?_, fun hpages hchannels hrefs => ?_⟩
  · obtain ⟨hchan, hframe⟩ := State.engineReset_unclaimed (s := s.replySent) hr hp
    generalize s.replySent.engineReset = t at hexec hsent hchan hframe
    exact ⟨t, hexec, hsent, hchan, hframe⟩
  · obtain ⟨hwf, hchan, hhandle, hframe⟩ := State.engineReset_spec (State.HeldWf.of hpages hchannels hrefs).replySent
    generalize s.replySent.engineReset = t at hexec hsent hchan hwf hhandle hframe
    exact ⟨t, hexec, hsent, hchan, hwf, hhandle, hframe⟩

end Sys2Proof.Proofs
end
